-- ==== Sys2Proof/Word.lean ====
section
/-! DEFINITION. The machine's word types: the byte (u8) and the 16-bit CPU address (u16) of
spec/00_scope.md rules R6, R10 and R11. Addition and subtraction on both wrap, as `BitVec`'s do. -/

namespace Sys2Proof

/-- `u8` of rule R10: register contents, bus data, memory cells. -/
abbrev Byte := BitVec 8

/-- `u16` of rule R10: a CPU address, and the program counter. -/
abbrev Addr := BitVec 16

end Sys2Proof
end

