-- ==== Sys2Proof/Syntax.lean ====
section
/-! DEFINITION. The instruction set's syntax: one constructor of `Instr` per row of spec/opcode_table.json
(spec/30_encoding.md rules R101, R105 and R106), the operand forms of rule R101, and what a row of the
table says of its opcode (rule R102). A constructor is named by its mnemonic and addressing mode; where the
table gives one pair several opcodes, the unofficial ones carry their opcode. -/

namespace Sys2Proof

/-- The thirteen formats of rule R101. -/
inductive Mode where
  | implied | accumulator | immediate
  | zeropage | zeropageX | zeropageY
  | absolute | absoluteX | absoluteY
  | indirectX | indirectY
  | relative | indirect
  deriving DecidableEq, Repr

/-- The operand forms that name a byte of the CPU address space (rules R134 to R141). -/
inductive MemOperand where
  | zeropage (z : Byte) | zeropageX (z : Byte) | zeropageY (z : Byte)
  | absolute (a : Addr) | absoluteX (a : Addr) | absoluteY (a : Addr)
  | indirectX (z : Byte) | indirectY (z : Byte)
  deriving DecidableEq, Repr

/-- The operand of an instruction, by its format (rule R101). -/
inductive Operand where
  | implied
  | accumulator
  | immediate (v : Byte)
  | mem (m : MemOperand)
  | relative (d : Byte)
  | indirect (a : Addr)
  deriving DecidableEq, Repr

/-- The class of an opcode (rule R102): official, or class (a), (b) or (c) of rule R107. -/
inductive OpClass where
  | official | unofficialExecuted | unofficialNoop | unofficialJam
  deriving DecidableEq, Repr

/-- The mnemonics of the opcode table ("instruction kind" of rule R102). -/
inductive Mnemonic where
  | BRK | ORA | JAM | SLO | NOP | ASL | PHP | ANC | BPL | CLC | JSR | AND | RLA | BIT
  | ROL | PLP | BMI | SEC | RTI | EOR | SRE | LSR | PHA | ALR | JMP | BVC | CLI | RTS
  | ADC | RRA | ROR | PLA | ARR | BVS | SEI | STA | SAX | STY | STX | DEY | TXA | XAA
  | BCC | SHA | TYA | TXS | TAS | SHY | SHX | LDY | LDA | LDX | LAX | TAY | TAX | LXA
  | BCS | CLV | TSX | LAS | CPY | CMP | DCP | DEC | INY | DEX | AXS | BNE | CLD | CPX
  | SBC | ISC | INC | INX | BEQ | SED
  deriving DecidableEq, Repr

/-- What `Decode(op)` of rule R102 gives for an opcode byte, with the other columns of its table row. -/
structure Row where
  kind : Mnemonic
  mode : Mode
  /-- the baseline cost -/
  cycles : Nat
  /-- the `+` of rule R105 -/
  pagePenalty : Bool
  /-- the `b` of rule R105 -/
  branchAdders : Bool
  cls : OpClass
  deriving DecidableEq, Repr

/-- One constructor per opcode: those with operand bytes in the table's order, then those without (Lean's
compiler numbers constructors that have fields up to 244 only). A field is the operand byte of rule R101 (`v` the
immediate, `z` the zero-page byte, `d` the displacement) or the two operand bytes assembled (`a`). -/
inductive Instr where
  | oraIndX (z : Byte)
  | sloIndX (z : Byte)
  | nopZp04 (z : Byte)
  | oraZp (z : Byte)
  | aslZp (z : Byte)
  | sloZp (z : Byte)
  | oraImm (v : Byte)
  | ancImm0B (v : Byte)
  | nopAbs (a : Addr)
  | oraAbs (a : Addr)
  | aslAbs (a : Addr)
  | sloAbs (a : Addr)
  | bpl (d : Byte)
  | oraIndY (z : Byte)
  | sloIndY (z : Byte)
  | nopZpX14 (z : Byte)
  | oraZpX (z : Byte)
  | aslZpX (z : Byte)
  | sloZpX (z : Byte)
  | oraAbsY (a : Addr)
  | sloAbsY (a : Addr)
  | nopAbsX1C (a : Addr)
  | oraAbsX (a : Addr)
  | aslAbsX (a : Addr)
  | sloAbsX (a : Addr)
  | jsrAbs (a : Addr)
  | andIndX (z : Byte)
  | rlaIndX (z : Byte)
  | bitZp (z : Byte)
  | andZp (z : Byte)
  | rolZp (z : Byte)
  | rlaZp (z : Byte)
  | andImm (v : Byte)
  | ancImm2B (v : Byte)
  | bitAbs (a : Addr)
  | andAbs (a : Addr)
  | rolAbs (a : Addr)
  | rlaAbs (a : Addr)
  | bmi (d : Byte)
  | andIndY (z : Byte)
  | rlaIndY (z : Byte)
  | nopZpX34 (z : Byte)
  | andZpX (z : Byte)
  | rolZpX (z : Byte)
  | rlaZpX (z : Byte)
  | andAbsY (a : Addr)
  | rlaAbsY (a : Addr)
  | nopAbsX3C (a : Addr)
  | andAbsX (a : Addr)
  | rolAbsX (a : Addr)
  | rlaAbsX (a : Addr)
  | eorIndX (z : Byte)
  | sreIndX (z : Byte)
  | nopZp44 (z : Byte)
  | eorZp (z : Byte)
  | lsrZp (z : Byte)
  | sreZp (z : Byte)
  | eorImm (v : Byte)
  | alrImm (v : Byte)
  | jmpAbs (a : Addr)
  | eorAbs (a : Addr)
  | lsrAbs (a : Addr)
  | sreAbs (a : Addr)
  | bvc (d : Byte)
  | eorIndY (z : Byte)
  | sreIndY (z : Byte)
  | nopZpX54 (z : Byte)
  | eorZpX (z : Byte)
  | lsrZpX (z : Byte)
  | sreZpX (z : Byte)
  | eorAbsY (a : Addr)
  | sreAbsY (a : Addr)
  | nopAbsX5C (a : Addr)
  | eorAbsX (a : Addr)
  | lsrAbsX (a : Addr)
  | sreAbsX (a : Addr)
  | adcIndX (z : Byte)
  | rraIndX (z : Byte)
  | nopZp64 (z : Byte)
  | adcZp (z : Byte)
  | rorZp (z : Byte)
  | rraZp (z : Byte)
  | adcImm (v : Byte)
  | arrImm (v : Byte)
  | jmpInd (a : Addr)
  | adcAbs (a : Addr)
  | rorAbs (a : Addr)
  | rraAbs (a : Addr)
  | bvs (d : Byte)
  | adcIndY (z : Byte)
  | rraIndY (z : Byte)
  | nopZpX74 (z : Byte)
  | adcZpX (z : Byte)
  | rorZpX (z : Byte)
  | rraZpX (z : Byte)
  | adcAbsY (a : Addr)
  | rraAbsY (a : Addr)
  | nopAbsX7C (a : Addr)
  | adcAbsX (a : Addr)
  | rorAbsX (a : Addr)
  | rraAbsX (a : Addr)
  | nopImm80 (v : Byte)
  | staIndX (z : Byte)
  | nopImm82 (v : Byte)
  | saxIndX (z : Byte)
  | styZp (z : Byte)
  | staZp (z : Byte)
  | stxZp (z : Byte)
  | saxZp (z : Byte)
  | nopImm89 (v : Byte)
  | xaaImm (v : Byte)
  | styAbs (a : Addr)
  | staAbs (a : Addr)
  | stxAbs (a : Addr)
  | saxAbs (a : Addr)
  | bcc (d : Byte)
  | staIndY (z : Byte)
  | shaIndY (z : Byte)
  | styZpX (z : Byte)
  | staZpX (z : Byte)
  | stxZpY (z : Byte)
  | saxZpY (z : Byte)
  | staAbsY (a : Addr)
  | tasAbsY (a : Addr)
  | shyAbsX (a : Addr)
  | staAbsX (a : Addr)
  | shxAbsY (a : Addr)
  | shaAbsY (a : Addr)
  | ldyImm (v : Byte)
  | ldaIndX (z : Byte)
  | ldxImm (v : Byte)
  | laxIndX (z : Byte)
  | ldyZp (z : Byte)
  | ldaZp (z : Byte)
  | ldxZp (z : Byte)
  | laxZp (z : Byte)
  | ldaImm (v : Byte)
  | lxaImm (v : Byte)
  | ldyAbs (a : Addr)
  | ldaAbs (a : Addr)
  | ldxAbs (a : Addr)
  | laxAbs (a : Addr)
  | bcs (d : Byte)
  | ldaIndY (z : Byte)
  | laxIndY (z : Byte)
  | ldyZpX (z : Byte)
  | ldaZpX (z : Byte)
  | ldxZpY (z : Byte)
  | laxZpY (z : Byte)
  | ldaAbsY (a : Addr)
  | lasAbsY (a : Addr)
  | ldyAbsX (a : Addr)
  | ldaAbsX (a : Addr)
  | ldxAbsY (a : Addr)
  | laxAbsY (a : Addr)
  | cpyImm (v : Byte)
  | cmpIndX (z : Byte)
  | nopImmC2 (v : Byte)
  | dcpIndX (z : Byte)
  | cpyZp (z : Byte)
  | cmpZp (z : Byte)
  | decZp (z : Byte)
  | dcpZp (z : Byte)
  | cmpImm (v : Byte)
  | axsImm (v : Byte)
  | cpyAbs (a : Addr)
  | cmpAbs (a : Addr)
  | decAbs (a : Addr)
  | dcpAbs (a : Addr)
  | bne (d : Byte)
  | cmpIndY (z : Byte)
  | dcpIndY (z : Byte)
  | nopZpXD4 (z : Byte)
  | cmpZpX (z : Byte)
  | decZpX (z : Byte)
  | dcpZpX (z : Byte)
  | cmpAbsY (a : Addr)
  | dcpAbsY (a : Addr)
  | nopAbsXDC (a : Addr)
  | cmpAbsX (a : Addr)
  | decAbsX (a : Addr)
  | dcpAbsX (a : Addr)
  | cpxImm (v : Byte)
  | sbcIndX (z : Byte)
  | nopImmE2 (v : Byte)
  | iscIndX (z : Byte)
  | cpxZp (z : Byte)
  | sbcZp (z : Byte)
  | incZp (z : Byte)
  | iscZp (z : Byte)
  | sbcImm (v : Byte)
  | sbcImmEB (v : Byte)
  | cpxAbs (a : Addr)
  | sbcAbs (a : Addr)
  | incAbs (a : Addr)
  | iscAbs (a : Addr)
  | beq (d : Byte)
  | sbcIndY (z : Byte)
  | iscIndY (z : Byte)
  | nopZpXF4 (z : Byte)
  | sbcZpX (z : Byte)
  | incZpX (z : Byte)
  | iscZpX (z : Byte)
  | sbcAbsY (a : Addr)
  | iscAbsY (a : Addr)
  | nopAbsXFC (a : Addr)
  | sbcAbsX (a : Addr)
  | incAbsX (a : Addr)
  | iscAbsX (a : Addr)
  | brk
  | jam02
  | php
  | aslA
  | jam12
  | clc
  | nop1A
  | jam22
  | plp
  | rolA
  | jam32
  | sec
  | nop3A
  | rti
  | jam42
  | pha
  | lsrA
  | jam52
  | cli
  | nop5A
  | rts
  | jam62
  | pla
  | rorA
  | jam72
  | sei
  | nop7A
  | dey
  | txa
  | jam92
  | tya
  | txs
  | tay
  | tax
  | jamB2
  | clv
  | tsx
  | iny
  | dex
  | jamD2
  | cld
  | nopDA
  | inx
  | nop
  | jamF2
  | sed
  | nopFA
  deriving DecidableEq, Repr

end Sys2Proof
end

