-- ==== Sys2Proof/Decode.lean ====
section
/-! DEFINITION. Decoding and encoding (spec/30_encoding.md). The opcode byte alone gives the format and so the
length (rule R100); no opcode value is undefined, reserved or trapping (rule R102), so decoding rejects a byte
list only when it ends before the instruction does. The tables are those of spec/opcode_table.json (rules R105,
R106), sixteen opcodes a row. -/

namespace Sys2Proof

/-! ### Byte order (rule R70: little-endian everywhere) -/

/-- `{hi, lo}` of rule R11. -/
def wordOf (hi lo : Byte) : Addr := hi ++ lo

/-- Bits 7:0. -/
def loByte (w : Addr) : Byte := w.extractLsb' 0 8

/-- Bits 15:8. -/
def hiByte (w : Addr) : Byte := w.extractLsb' 8 8

/-! ### Formats -/

/-- The length of an instruction in bytes, by its format (rule R101). -/
def Mode.bytes : Mode → Nat
  | .implied | .accumulator => 1
  | .immediate | .zeropage | .zeropageX | .zeropageY | .indirectX | .indirectY | .relative => 2
  | .absolute | .absoluteX | .absoluteY | .indirect => 3

/-- The format of a memory operand. -/
def MemOperand.mode : MemOperand → Mode
  | .zeropage _ => .zeropage
  | .zeropageX _ => .zeropageX
  | .zeropageY _ => .zeropageY
  | .absolute _ => .absolute
  | .absoluteX _ => .absoluteX
  | .absoluteY _ => .absoluteY
  | .indirectX _ => .indirectX
  | .indirectY _ => .indirectY

/-- The format an operand belongs to. -/
def Operand.mode : Operand → Mode
  | .implied => .implied
  | .accumulator => .accumulator
  | .immediate _ => .immediate
  | .mem m => m.mode
  | .relative _ => .relative
  | .indirect _ => .indirect

/-- The operand bytes of a memory operand in ascending address order (rules R101, R103: low byte first). -/
def MemOperand.bytes : MemOperand → List Byte
  | .zeropage z | .zeropageX z | .zeropageY z | .indirectX z | .indirectY z => [z]
  | .absolute a | .absoluteX a | .absoluteY a => [loByte a, hiByte a]

/-- The operand bytes in ascending address order. -/
def Operand.bytes : Operand → List Byte
  | .implied | .accumulator => []
  | .immediate v => [v]
  | .mem m => m.bytes
  | .relative d => [d]
  | .indirect a => [loByte a, hiByte a]

/-! ### `Decode(op)` of rule R102: the columns of the opcode table -/

/-- Opcodes $00 to $0F. -/
def rowTable0 : List Row := [
  ⟨.BRK, .implied, 7, false, false, .official⟩,
  ⟨.ORA, .indirectX, 6, false, false, .official⟩,
  ⟨.JAM, .implied, 2, false, false, .unofficialJam⟩,
  ⟨.SLO, .indirectX, 8, false, false, .unofficialExecuted⟩,
  ⟨.NOP, .zeropage, 3, false, false, .unofficialExecuted⟩,
  ⟨.ORA, .zeropage, 3, false, false, .official⟩,
  ⟨.ASL, .zeropage, 5, false, false, .official⟩,
  ⟨.SLO, .zeropage, 5, false, false, .unofficialExecuted⟩,
  ⟨.PHP, .implied, 3, false, false, .official⟩,
  ⟨.ORA, .immediate, 2, false, false, .official⟩,
  ⟨.ASL, .accumulator, 2, false, false, .official⟩,
  ⟨.ANC, .immediate, 2, false, false, .unofficialExecuted⟩,
  ⟨.NOP, .absolute, 4, false, false, .unofficialExecuted⟩,
  ⟨.ORA, .absolute, 4, false, false, .official⟩,
  ⟨.ASL, .absolute, 6, false, false, .official⟩,
  ⟨.SLO, .absolute, 6, false, false, .unofficialExecuted⟩]

/-- Opcodes $10 to $1F. -/
def rowTable1 : List Row := [
  ⟨.BPL, .relative, 2, false, true, .official⟩,
  ⟨.ORA, .indirectY, 5, true, false, .official⟩,
  ⟨.JAM, .implied, 2, false, false, .unofficialJam⟩,
  ⟨.SLO, .indirectY, 8, false, false, .unofficialExecuted⟩,
  ⟨.NOP, .zeropageX, 4, false, false, .unofficialExecuted⟩,
  ⟨.ORA, .zeropageX, 4, false, false, .official⟩,
  ⟨.ASL, .zeropageX, 6, false, false, .official⟩,
  ⟨.SLO, .zeropageX, 6, false, false, .unofficialExecuted⟩,
  ⟨.CLC, .implied, 2, false, false, .official⟩,
  ⟨.ORA, .absoluteY, 4, true, false, .official⟩,
  ⟨.NOP, .implied, 2, false, false, .unofficialExecuted⟩,
  ⟨.SLO, .absoluteY, 7, false, false, .unofficialExecuted⟩,
  ⟨.NOP, .absoluteX, 4, true, false, .unofficialExecuted⟩,
  ⟨.ORA, .absoluteX, 4, true, false, .official⟩,
  ⟨.ASL, .absoluteX, 7, false, false, .official⟩,
  ⟨.SLO, .absoluteX, 7, false, false, .unofficialExecuted⟩]

/-- Opcodes $20 to $2F. -/
def rowTable2 : List Row := [
  ⟨.JSR, .absolute, 6, false, false, .official⟩,
  ⟨.AND, .indirectX, 6, false, false, .official⟩,
  ⟨.JAM, .implied, 2, false, false, .unofficialJam⟩,
  ⟨.RLA, .indirectX, 8, false, false, .unofficialExecuted⟩,
  ⟨.BIT, .zeropage, 3, false, false, .official⟩,
  ⟨.AND, .zeropage, 3, false, false, .official⟩,
  ⟨.ROL, .zeropage, 5, false, false, .official⟩,
  ⟨.RLA, .zeropage, 5, false, false, .unofficialExecuted⟩,
  ⟨.PLP, .implied, 4, false, false, .official⟩,
  ⟨.AND, .immediate, 2, false, false, .official⟩,
  ⟨.ROL, .accumulator, 2, false, false, .official⟩,
  ⟨.ANC, .immediate, 2, false, false, .unofficialExecuted⟩,
  ⟨.BIT, .absolute, 4, false, false, .official⟩,
  ⟨.AND, .absolute, 4, false, false, .official⟩,
  ⟨.ROL, .absolute, 6, false, false, .official⟩,
  ⟨.RLA, .absolute, 6, false, false, .unofficialExecuted⟩]

/-- Opcodes $30 to $3F. -/
def rowTable3 : List Row := [
  ⟨.BMI, .relative, 2, false, true, .official⟩,
  ⟨.AND, .indirectY, 5, true, false, .official⟩,
  ⟨.JAM, .implied, 2, false, false, .unofficialJam⟩,
  ⟨.RLA, .indirectY, 8, false, false, .unofficialExecuted⟩,
  ⟨.NOP, .zeropageX, 4, false, false, .unofficialExecuted⟩,
  ⟨.AND, .zeropageX, 4, false, false, .official⟩,
  ⟨.ROL, .zeropageX, 6, false, false, .official⟩,
  ⟨.RLA, .zeropageX, 6, false, false, .unofficialExecuted⟩,
  ⟨.SEC, .implied, 2, false, false, .official⟩,
  ⟨.AND, .absoluteY, 4, true, false, .official⟩,
  ⟨.NOP, .implied, 2, false, false, .unofficialExecuted⟩,
  ⟨.RLA, .absoluteY, 7, false, false, .unofficialExecuted⟩,
  ⟨.NOP, .absoluteX, 4, true, false, .unofficialExecuted⟩,
  ⟨.AND, .absoluteX, 4, true, false, .official⟩,
  ⟨.ROL, .absoluteX, 7, false, false, .official⟩,
  ⟨.RLA, .absoluteX, 7, false, false, .unofficialExecuted⟩]

/-- Opcodes $40 to $4F. -/
def rowTable4 : List Row := [
  ⟨.RTI, .implied, 6, false, false, .official⟩,
  ⟨.EOR, .indirectX, 6, false, false, .official⟩,
  ⟨.JAM, .implied, 2, false, false, .unofficialJam⟩,
  ⟨.SRE, .indirectX, 8, false, false, .unofficialExecuted⟩,
  ⟨.NOP, .zeropage, 3, false, false, .unofficialExecuted⟩,
  ⟨.EOR, .zeropage, 3, false, false, .official⟩,
  ⟨.LSR, .zeropage, 5, false, false, .official⟩,
  ⟨.SRE, .zeropage, 5, false, false, .unofficialExecuted⟩,
  ⟨.PHA, .implied, 3, false, false, .official⟩,
  ⟨.EOR, .immediate, 2, false, false, .official⟩,
  ⟨.LSR, .accumulator, 2, false, false, .official⟩,
  ⟨.ALR, .immediate, 2, false, false, .unofficialExecuted⟩,
  ⟨.JMP, .absolute, 3, false, false, .official⟩,
  ⟨.EOR, .absolute, 4, false, false, .official⟩,
  ⟨.LSR, .absolute, 6, false, false, .official⟩,
  ⟨.SRE, .absolute, 6, false, false, .unofficialExecuted⟩]

/-- Opcodes $50 to $5F. -/
def rowTable5 : List Row := [
  ⟨.BVC, .relative, 2, false, true, .official⟩,
  ⟨.EOR, .indirectY, 5, true, false, .official⟩,
  ⟨.JAM, .implied, 2, false, false, .unofficialJam⟩,
  ⟨.SRE, .indirectY, 8, false, false, .unofficialExecuted⟩,
  ⟨.NOP, .zeropageX, 4, false, false, .unofficialExecuted⟩,
  ⟨.EOR, .zeropageX, 4, false, false, .official⟩,
  ⟨.LSR, .zeropageX, 6, false, false, .official⟩,
  ⟨.SRE, .zeropageX, 6, false, false, .unofficialExecuted⟩,
  ⟨.CLI, .implied, 2, false, false, .official⟩,
  ⟨.EOR, .absoluteY, 4, true, false, .official⟩,
  ⟨.NOP, .implied, 2, false, false, .unofficialExecuted⟩,
  ⟨.SRE, .absoluteY, 7, false, false, .unofficialExecuted⟩,
  ⟨.NOP, .absoluteX, 4, true, false, .unofficialExecuted⟩,
  ⟨.EOR, .absoluteX, 4, true, false, .official⟩,
  ⟨.LSR, .absoluteX, 7, false, false, .official⟩,
  ⟨.SRE, .absoluteX, 7, false, false, .unofficialExecuted⟩]

/-- Opcodes $60 to $6F. -/
def rowTable6 : List Row := [
  ⟨.RTS, .implied, 6, false, false, .official⟩,
  ⟨.ADC, .indirectX, 6, false, false, .official⟩,
  ⟨.JAM, .implied, 2, false, false, .unofficialJam⟩,
  ⟨.RRA, .indirectX, 8, false, false, .unofficialExecuted⟩,
  ⟨.NOP, .zeropage, 3, false, false, .unofficialExecuted⟩,
  ⟨.ADC, .zeropage, 3, false, false, .official⟩,
  ⟨.ROR, .zeropage, 5, false, false, .official⟩,
  ⟨.RRA, .zeropage, 5, false, false, .unofficialExecuted⟩,
  ⟨.PLA, .implied, 4, false, false, .official⟩,
  ⟨.ADC, .immediate, 2, false, false, .official⟩,
  ⟨.ROR, .accumulator, 2, false, false, .official⟩,
  ⟨.ARR, .immediate, 2, false, false, .unofficialExecuted⟩,
  ⟨.JMP, .indirect, 5, false, false, .official⟩,
  ⟨.ADC, .absolute, 4, false, false, .official⟩,
  ⟨.ROR, .absolute, 6, false, false, .official⟩,
  ⟨.RRA, .absolute, 6, false, false, .unofficialExecuted⟩]

/-- Opcodes $70 to $7F. -/
def rowTable7 : List Row := [
  ⟨.BVS, .relative, 2, false, true, .official⟩,
  ⟨.ADC, .indirectY, 5, true, false, .official⟩,
  ⟨.JAM, .implied, 2, false, false, .unofficialJam⟩,
  ⟨.RRA, .indirectY, 8, false, false, .unofficialExecuted⟩,
  ⟨.NOP, .zeropageX, 4, false, false, .unofficialExecuted⟩,
  ⟨.ADC, .zeropageX, 4, false, false, .official⟩,
  ⟨.ROR, .zeropageX, 6, false, false, .official⟩,
  ⟨.RRA, .zeropageX, 6, false, false, .unofficialExecuted⟩,
  ⟨.SEI, .implied, 2, false, false, .official⟩,
  ⟨.ADC, .absoluteY, 4, true, false, .official⟩,
  ⟨.NOP, .implied, 2, false, false, .unofficialExecuted⟩,
  ⟨.RRA, .absoluteY, 7, false, false, .unofficialExecuted⟩,
  ⟨.NOP, .absoluteX, 4, true, false, .unofficialExecuted⟩,
  ⟨.ADC, .absoluteX, 4, true, false, .official⟩,
  ⟨.ROR, .absoluteX, 7, false, false, .official⟩,
  ⟨.RRA, .absoluteX, 7, false, false, .unofficialExecuted⟩]

/-- Opcodes $80 to $8F. -/
def rowTable8 : List Row := [
  ⟨.NOP, .immediate, 2, false, false, .unofficialExecuted⟩,
  ⟨.STA, .indirectX, 6, false, false, .official⟩,
  ⟨.NOP, .immediate, 2, false, false, .unofficialExecuted⟩,
  ⟨.SAX, .indirectX, 6, false, false, .unofficialExecuted⟩,
  ⟨.STY, .zeropage, 3, false, false, .official⟩,
  ⟨.STA, .zeropage, 3, false, false, .official⟩,
  ⟨.STX, .zeropage, 3, false, false, .official⟩,
  ⟨.SAX, .zeropage, 3, false, false, .unofficialExecuted⟩,
  ⟨.DEY, .implied, 2, false, false, .official⟩,
  ⟨.NOP, .immediate, 2, false, false, .unofficialExecuted⟩,
  ⟨.TXA, .implied, 2, false, false, .official⟩,
  ⟨.XAA, .immediate, 2, false, false, .unofficialNoop⟩,
  ⟨.STY, .absolute, 4, false, false, .official⟩,
  ⟨.STA, .absolute, 4, false, false, .official⟩,
  ⟨.STX, .absolute, 4, false, false, .official⟩,
  ⟨.SAX, .absolute, 4, false, false, .unofficialExecuted⟩]

/-- Opcodes $90 to $9F. -/
def rowTable9 : List Row := [
  ⟨.BCC, .relative, 2, false, true, .official⟩,
  ⟨.STA, .indirectY, 6, false, false, .official⟩,
  ⟨.JAM, .implied, 2, false, false, .unofficialJam⟩,
  ⟨.SHA, .indirectY, 6, false, false, .unofficialNoop⟩,
  ⟨.STY, .zeropageX, 4, false, false, .official⟩,
  ⟨.STA, .zeropageX, 4, false, false, .official⟩,
  ⟨.STX, .zeropageY, 4, false, false, .official⟩,
  ⟨.SAX, .zeropageY, 4, false, false, .unofficialExecuted⟩,
  ⟨.TYA, .implied, 2, false, false, .official⟩,
  ⟨.STA, .absoluteY, 5, false, false, .official⟩,
  ⟨.TXS, .implied, 2, false, false, .official⟩,
  ⟨.TAS, .absoluteY, 5, false, false, .unofficialNoop⟩,
  ⟨.SHY, .absoluteX, 5, false, false, .unofficialNoop⟩,
  ⟨.STA, .absoluteX, 5, false, false, .official⟩,
  ⟨.SHX, .absoluteY, 5, false, false, .unofficialNoop⟩,
  ⟨.SHA, .absoluteY, 5, false, false, .unofficialNoop⟩]

/-- Opcodes $A0 to $AF. -/
def rowTableA : List Row := [
  ⟨.LDY, .immediate, 2, false, false, .official⟩,
  ⟨.LDA, .indirectX, 6, false, false, .official⟩,
  ⟨.LDX, .immediate, 2, false, false, .official⟩,
  ⟨.LAX, .indirectX, 6, false, false, .unofficialExecuted⟩,
  ⟨.LDY, .zeropage, 3, false, false, .official⟩,
  ⟨.LDA, .zeropage, 3, false, false, .official⟩,
  ⟨.LDX, .zeropage, 3, false, false, .official⟩,
  ⟨.LAX, .zeropage, 3, false, false, .unofficialExecuted⟩,
  ⟨.TAY, .implied, 2, false, false, .official⟩,
  ⟨.LDA, .immediate, 2, false, false, .official⟩,
  ⟨.TAX, .implied, 2, false, false, .official⟩,
  ⟨.LXA, .immediate, 2, false, false, .unofficialNoop⟩,
  ⟨.LDY, .absolute, 4, false, false, .official⟩,
  ⟨.LDA, .absolute, 4, false, false, .official⟩,
  ⟨.LDX, .absolute, 4, false, false, .official⟩,
  ⟨.LAX, .absolute, 4, false, false, .unofficialExecuted⟩]

/-- Opcodes $B0 to $BF. -/
def rowTableB : List Row := [
  ⟨.BCS, .relative, 2, false, true, .official⟩,
  ⟨.LDA, .indirectY, 5, true, false, .official⟩,
  ⟨.JAM, .implied, 2, false, false, .unofficialJam⟩,
  ⟨.LAX, .indirectY, 5, true, false, .unofficialExecuted⟩,
  ⟨.LDY, .zeropageX, 4, false, false, .official⟩,
  ⟨.LDA, .zeropageX, 4, false, false, .official⟩,
  ⟨.LDX, .zeropageY, 4, false, false, .official⟩,
  ⟨.LAX, .zeropageY, 4, false, false, .unofficialExecuted⟩,
  ⟨.CLV, .implied, 2, false, false, .official⟩,
  ⟨.LDA, .absoluteY, 4, true, false, .official⟩,
  ⟨.TSX, .implied, 2, false, false, .official⟩,
  ⟨.LAS, .absoluteY, 4, false, false, .unofficialNoop⟩,
  ⟨.LDY, .absoluteX, 4, true, false, .official⟩,
  ⟨.LDA, .absoluteX, 4, true, false, .official⟩,
  ⟨.LDX, .absoluteY, 4, true, false, .official⟩,
  ⟨.LAX, .absoluteY, 4, true, false, .unofficialExecuted⟩]

/-- Opcodes $C0 to $CF. -/
def rowTableC : List Row := [
  ⟨.CPY, .immediate, 2, false, false, .official⟩,
  ⟨.CMP, .indirectX, 6, false, false, .official⟩,
  ⟨.NOP, .immediate, 2, false, false, .unofficialExecuted⟩,
  ⟨.DCP, .indirectX, 8, false, false, .unofficialExecuted⟩,
  ⟨.CPY, .zeropage, 3, false, false, .official⟩,
  ⟨.CMP, .zeropage, 3, false, false, .official⟩,
  ⟨.DEC, .zeropage, 5, false, false, .official⟩,
  ⟨.DCP, .zeropage, 5, false, false, .unofficialExecuted⟩,
  ⟨.INY, .implied, 2, false, false, .official⟩,
  ⟨.CMP, .immediate, 2, false, false, .official⟩,
  ⟨.DEX, .implied, 2, false, false, .official⟩,
  ⟨.AXS, .immediate, 2, false, false, .unofficialExecuted⟩,
  ⟨.CPY, .absolute, 4, false, false, .official⟩,
  ⟨.CMP, .absolute, 4, false, false, .official⟩,
  ⟨.DEC, .absolute, 6, false, false, .official⟩,
  ⟨.DCP, .absolute, 6, false, false, .unofficialExecuted⟩]

/-- Opcodes $D0 to $DF. -/
def rowTableD : List Row := [
  ⟨.BNE, .relative, 2, false, true, .official⟩,
  ⟨.CMP, .indirectY, 5, true, false, .official⟩,
  ⟨.JAM, .implied, 2, false, false, .unofficialJam⟩,
  ⟨.DCP, .indirectY, 8, false, false, .unofficialExecuted⟩,
  ⟨.NOP, .zeropageX, 4, false, false, .unofficialExecuted⟩,
  ⟨.CMP, .zeropageX, 4, false, false, .official⟩,
  ⟨.DEC, .zeropageX, 6, false, false, .official⟩,
  ⟨.DCP, .zeropageX, 6, false, false, .unofficialExecuted⟩,
  ⟨.CLD, .implied, 2, false, false, .official⟩,
  ⟨.CMP, .absoluteY, 4, true, false, .official⟩,
  ⟨.NOP, .implied, 2, false, false, .unofficialExecuted⟩,
  ⟨.DCP, .absoluteY, 7, false, false, .unofficialExecuted⟩,
  ⟨.NOP, .absoluteX, 4, true, false, .unofficialExecuted⟩,
  ⟨.CMP, .absoluteX, 4, true, false, .official⟩,
  ⟨.DEC, .absoluteX, 7, false, false, .official⟩,
  ⟨.DCP, .absoluteX, 7, false, false, .unofficialExecuted⟩]

/-- Opcodes $E0 to $EF. -/
def rowTableE : List Row := [
  ⟨.CPX, .immediate, 2, false, false, .official⟩,
  ⟨.SBC, .indirectX, 6, false, false, .official⟩,
  ⟨.NOP, .immediate, 2, false, false, .unofficialExecuted⟩,
  ⟨.ISC, .indirectX, 8, false, false, .unofficialExecuted⟩,
  ⟨.CPX, .zeropage, 3, false, false, .official⟩,
  ⟨.SBC, .zeropage, 3, false, false, .official⟩,
  ⟨.INC, .zeropage, 5, false, false, .official⟩,
  ⟨.ISC, .zeropage, 5, false, false, .unofficialExecuted⟩,
  ⟨.INX, .implied, 2, false, false, .official⟩,
  ⟨.SBC, .immediate, 2, false, false, .official⟩,
  ⟨.NOP, .implied, 2, false, false, .official⟩,
  ⟨.SBC, .immediate, 2, false, false, .unofficialExecuted⟩,
  ⟨.CPX, .absolute, 4, false, false, .official⟩,
  ⟨.SBC, .absolute, 4, false, false, .official⟩,
  ⟨.INC, .absolute, 6, false, false, .official⟩,
  ⟨.ISC, .absolute, 6, false, false, .unofficialExecuted⟩]

/-- Opcodes $F0 to $FF. -/
def rowTableF : List Row := [
  ⟨.BEQ, .relative, 2, false, true, .official⟩,
  ⟨.SBC, .indirectY, 5, true, false, .official⟩,
  ⟨.JAM, .implied, 2, false, false, .unofficialJam⟩,
  ⟨.ISC, .indirectY, 8, false, false, .unofficialExecuted⟩,
  ⟨.NOP, .zeropageX, 4, false, false, .unofficialExecuted⟩,
  ⟨.SBC, .zeropageX, 4, false, false, .official⟩,
  ⟨.INC, .zeropageX, 6, false, false, .official⟩,
  ⟨.ISC, .zeropageX, 6, false, false, .unofficialExecuted⟩,
  ⟨.SED, .implied, 2, false, false, .official⟩,
  ⟨.SBC, .absoluteY, 4, true, false, .official⟩,
  ⟨.NOP, .implied, 2, false, false, .unofficialExecuted⟩,
  ⟨.ISC, .absoluteY, 7, false, false, .unofficialExecuted⟩,
  ⟨.NOP, .absoluteX, 4, true, false, .unofficialExecuted⟩,
  ⟨.SBC, .absoluteX, 4, true, false, .official⟩,
  ⟨.INC, .absoluteX, 7, false, false, .official⟩,
  ⟨.ISC, .absoluteX, 7, false, false, .unofficialExecuted⟩]

/-- The 256 rows of the opcode table, in opcode order. -/
def rowTable : List Row :=
  rowTable0 ++ rowTable1 ++ rowTable2 ++ rowTable3 ++
  rowTable4 ++ rowTable5 ++ rowTable6 ++ rowTable7 ++
  rowTable8 ++ rowTable9 ++ rowTableA ++ rowTableB ++
  rowTableC ++ rowTableD ++ rowTableE ++ rowTableF

/-- `Decode(op)` of rule R102. The table has a row for every byte value. -/
def decodeRow (op : Byte) : Row := rowTable.getD op.toNat ⟨.NOP, .implied, 2, false, false, .official⟩

/-! ### From bytes to instructions -/

/-- Opcodes $00 to $0F. -/
def decodeTable0 : List (Byte → Byte → Instr) := [
  fun _ _ => .brk,
  fun b _ => .oraIndX b,
  fun _ _ => .jam02,
  fun b _ => .sloIndX b,
  fun b _ => .nopZp04 b,
  fun b _ => .oraZp b,
  fun b _ => .aslZp b,
  fun b _ => .sloZp b,
  fun _ _ => .php,
  fun b _ => .oraImm b,
  fun _ _ => .aslA,
  fun b _ => .ancImm0B b,
  fun b c => .nopAbs (wordOf c b),
  fun b c => .oraAbs (wordOf c b),
  fun b c => .aslAbs (wordOf c b),
  fun b c => .sloAbs (wordOf c b)]

/-- Opcodes $10 to $1F. -/
def decodeTable1 : List (Byte → Byte → Instr) := [
  fun b _ => .bpl b,
  fun b _ => .oraIndY b,
  fun _ _ => .jam12,
  fun b _ => .sloIndY b,
  fun b _ => .nopZpX14 b,
  fun b _ => .oraZpX b,
  fun b _ => .aslZpX b,
  fun b _ => .sloZpX b,
  fun _ _ => .clc,
  fun b c => .oraAbsY (wordOf c b),
  fun _ _ => .nop1A,
  fun b c => .sloAbsY (wordOf c b),
  fun b c => .nopAbsX1C (wordOf c b),
  fun b c => .oraAbsX (wordOf c b),
  fun b c => .aslAbsX (wordOf c b),
  fun b c => .sloAbsX (wordOf c b)]

/-- Opcodes $20 to $2F. -/
def decodeTable2 : List (Byte → Byte → Instr) := [
  fun b c => .jsrAbs (wordOf c b),
  fun b _ => .andIndX b,
  fun _ _ => .jam22,
  fun b _ => .rlaIndX b,
  fun b _ => .bitZp b,
  fun b _ => .andZp b,
  fun b _ => .rolZp b,
  fun b _ => .rlaZp b,
  fun _ _ => .plp,
  fun b _ => .andImm b,
  fun _ _ => .rolA,
  fun b _ => .ancImm2B b,
  fun b c => .bitAbs (wordOf c b),
  fun b c => .andAbs (wordOf c b),
  fun b c => .rolAbs (wordOf c b),
  fun b c => .rlaAbs (wordOf c b)]

/-- Opcodes $30 to $3F. -/
def decodeTable3 : List (Byte → Byte → Instr) := [
  fun b _ => .bmi b,
  fun b _ => .andIndY b,
  fun _ _ => .jam32,
  fun b _ => .rlaIndY b,
  fun b _ => .nopZpX34 b,
  fun b _ => .andZpX b,
  fun b _ => .rolZpX b,
  fun b _ => .rlaZpX b,
  fun _ _ => .sec,
  fun b c => .andAbsY (wordOf c b),
  fun _ _ => .nop3A,
  fun b c => .rlaAbsY (wordOf c b),
  fun b c => .nopAbsX3C (wordOf c b),
  fun b c => .andAbsX (wordOf c b),
  fun b c => .rolAbsX (wordOf c b),
  fun b c => .rlaAbsX (wordOf c b)]

/-- Opcodes $40 to $4F. -/
def decodeTable4 : List (Byte → Byte → Instr) := [
  fun _ _ => .rti,
  fun b _ => .eorIndX b,
  fun _ _ => .jam42,
  fun b _ => .sreIndX b,
  fun b _ => .nopZp44 b,
  fun b _ => .eorZp b,
  fun b _ => .lsrZp b,
  fun b _ => .sreZp b,
  fun _ _ => .pha,
  fun b _ => .eorImm b,
  fun _ _ => .lsrA,
  fun b _ => .alrImm b,
  fun b c => .jmpAbs (wordOf c b),
  fun b c => .eorAbs (wordOf c b),
  fun b c => .lsrAbs (wordOf c b),
  fun b c => .sreAbs (wordOf c b)]

/-- Opcodes $50 to $5F. -/
def decodeTable5 : List (Byte → Byte → Instr) := [
  fun b _ => .bvc b,
  fun b _ => .eorIndY b,
  fun _ _ => .jam52,
  fun b _ => .sreIndY b,
  fun b _ => .nopZpX54 b,
  fun b _ => .eorZpX b,
  fun b _ => .lsrZpX b,
  fun b _ => .sreZpX b,
  fun _ _ => .cli,
  fun b c => .eorAbsY (wordOf c b),
  fun _ _ => .nop5A,
  fun b c => .sreAbsY (wordOf c b),
  fun b c => .nopAbsX5C (wordOf c b),
  fun b c => .eorAbsX (wordOf c b),
  fun b c => .lsrAbsX (wordOf c b),
  fun b c => .sreAbsX (wordOf c b)]

/-- Opcodes $60 to $6F. -/
def decodeTable6 : List (Byte → Byte → Instr) := [
  fun _ _ => .rts,
  fun b _ => .adcIndX b,
  fun _ _ => .jam62,
  fun b _ => .rraIndX b,
  fun b _ => .nopZp64 b,
  fun b _ => .adcZp b,
  fun b _ => .rorZp b,
  fun b _ => .rraZp b,
  fun _ _ => .pla,
  fun b _ => .adcImm b,
  fun _ _ => .rorA,
  fun b _ => .arrImm b,
  fun b c => .jmpInd (wordOf c b),
  fun b c => .adcAbs (wordOf c b),
  fun b c => .rorAbs (wordOf c b),
  fun b c => .rraAbs (wordOf c b)]

/-- Opcodes $70 to $7F. -/
def decodeTable7 : List (Byte → Byte → Instr) := [
  fun b _ => .bvs b,
  fun b _ => .adcIndY b,
  fun _ _ => .jam72,
  fun b _ => .rraIndY b,
  fun b _ => .nopZpX74 b,
  fun b _ => .adcZpX b,
  fun b _ => .rorZpX b,
  fun b _ => .rraZpX b,
  fun _ _ => .sei,
  fun b c => .adcAbsY (wordOf c b),
  fun _ _ => .nop7A,
  fun b c => .rraAbsY (wordOf c b),
  fun b c => .nopAbsX7C (wordOf c b),
  fun b c => .adcAbsX (wordOf c b),
  fun b c => .rorAbsX (wordOf c b),
  fun b c => .rraAbsX (wordOf c b)]

/-- Opcodes $80 to $8F. -/
def decodeTable8 : List (Byte → Byte → Instr) := [
  fun b _ => .nopImm80 b,
  fun b _ => .staIndX b,
  fun b _ => .nopImm82 b,
  fun b _ => .saxIndX b,
  fun b _ => .styZp b,
  fun b _ => .staZp b,
  fun b _ => .stxZp b,
  fun b _ => .saxZp b,
  fun _ _ => .dey,
  fun b _ => .nopImm89 b,
  fun _ _ => .txa,
  fun b _ => .xaaImm b,
  fun b c => .styAbs (wordOf c b),
  fun b c => .staAbs (wordOf c b),
  fun b c => .stxAbs (wordOf c b),
  fun b c => .saxAbs (wordOf c b)]

/-- Opcodes $90 to $9F. -/
def decodeTable9 : List (Byte → Byte → Instr) := [
  fun b _ => .bcc b,
  fun b _ => .staIndY b,
  fun _ _ => .jam92,
  fun b _ => .shaIndY b,
  fun b _ => .styZpX b,
  fun b _ => .staZpX b,
  fun b _ => .stxZpY b,
  fun b _ => .saxZpY b,
  fun _ _ => .tya,
  fun b c => .staAbsY (wordOf c b),
  fun _ _ => .txs,
  fun b c => .tasAbsY (wordOf c b),
  fun b c => .shyAbsX (wordOf c b),
  fun b c => .staAbsX (wordOf c b),
  fun b c => .shxAbsY (wordOf c b),
  fun b c => .shaAbsY (wordOf c b)]

/-- Opcodes $A0 to $AF. -/
def decodeTableA : List (Byte → Byte → Instr) := [
  fun b _ => .ldyImm b,
  fun b _ => .ldaIndX b,
  fun b _ => .ldxImm b,
  fun b _ => .laxIndX b,
  fun b _ => .ldyZp b,
  fun b _ => .ldaZp b,
  fun b _ => .ldxZp b,
  fun b _ => .laxZp b,
  fun _ _ => .tay,
  fun b _ => .ldaImm b,
  fun _ _ => .tax,
  fun b _ => .lxaImm b,
  fun b c => .ldyAbs (wordOf c b),
  fun b c => .ldaAbs (wordOf c b),
  fun b c => .ldxAbs (wordOf c b),
  fun b c => .laxAbs (wordOf c b)]

/-- Opcodes $B0 to $BF. -/
def decodeTableB : List (Byte → Byte → Instr) := [
  fun b _ => .bcs b,
  fun b _ => .ldaIndY b,
  fun _ _ => .jamB2,
  fun b _ => .laxIndY b,
  fun b _ => .ldyZpX b,
  fun b _ => .ldaZpX b,
  fun b _ => .ldxZpY b,
  fun b _ => .laxZpY b,
  fun _ _ => .clv,
  fun b c => .ldaAbsY (wordOf c b),
  fun _ _ => .tsx,
  fun b c => .lasAbsY (wordOf c b),
  fun b c => .ldyAbsX (wordOf c b),
  fun b c => .ldaAbsX (wordOf c b),
  fun b c => .ldxAbsY (wordOf c b),
  fun b c => .laxAbsY (wordOf c b)]

/-- Opcodes $C0 to $CF. -/
def decodeTableC : List (Byte → Byte → Instr) := [
  fun b _ => .cpyImm b,
  fun b _ => .cmpIndX b,
  fun b _ => .nopImmC2 b,
  fun b _ => .dcpIndX b,
  fun b _ => .cpyZp b,
  fun b _ => .cmpZp b,
  fun b _ => .decZp b,
  fun b _ => .dcpZp b,
  fun _ _ => .iny,
  fun b _ => .cmpImm b,
  fun _ _ => .dex,
  fun b _ => .axsImm b,
  fun b c => .cpyAbs (wordOf c b),
  fun b c => .cmpAbs (wordOf c b),
  fun b c => .decAbs (wordOf c b),
  fun b c => .dcpAbs (wordOf c b)]

/-- Opcodes $D0 to $DF. -/
def decodeTableD : List (Byte → Byte → Instr) := [
  fun b _ => .bne b,
  fun b _ => .cmpIndY b,
  fun _ _ => .jamD2,
  fun b _ => .dcpIndY b,
  fun b _ => .nopZpXD4 b,
  fun b _ => .cmpZpX b,
  fun b _ => .decZpX b,
  fun b _ => .dcpZpX b,
  fun _ _ => .cld,
  fun b c => .cmpAbsY (wordOf c b),
  fun _ _ => .nopDA,
  fun b c => .dcpAbsY (wordOf c b),
  fun b c => .nopAbsXDC (wordOf c b),
  fun b c => .cmpAbsX (wordOf c b),
  fun b c => .decAbsX (wordOf c b),
  fun b c => .dcpAbsX (wordOf c b)]

/-- Opcodes $E0 to $EF. -/
def decodeTableE : List (Byte → Byte → Instr) := [
  fun b _ => .cpxImm b,
  fun b _ => .sbcIndX b,
  fun b _ => .nopImmE2 b,
  fun b _ => .iscIndX b,
  fun b _ => .cpxZp b,
  fun b _ => .sbcZp b,
  fun b _ => .incZp b,
  fun b _ => .iscZp b,
  fun _ _ => .inx,
  fun b _ => .sbcImm b,
  fun _ _ => .nop,
  fun b _ => .sbcImmEB b,
  fun b c => .cpxAbs (wordOf c b),
  fun b c => .sbcAbs (wordOf c b),
  fun b c => .incAbs (wordOf c b),
  fun b c => .iscAbs (wordOf c b)]

/-- Opcodes $F0 to $FF. -/
def decodeTableF : List (Byte → Byte → Instr) := [
  fun b _ => .beq b,
  fun b _ => .sbcIndY b,
  fun _ _ => .jamF2,
  fun b _ => .iscIndY b,
  fun b _ => .nopZpXF4 b,
  fun b _ => .sbcZpX b,
  fun b _ => .incZpX b,
  fun b _ => .iscZpX b,
  fun _ _ => .sed,
  fun b c => .sbcAbsY (wordOf c b),
  fun _ _ => .nopFA,
  fun b c => .iscAbsY (wordOf c b),
  fun b c => .nopAbsXFC (wordOf c b),
  fun b c => .sbcAbsX (wordOf c b),
  fun b c => .incAbsX (wordOf c b),
  fun b c => .iscAbsX (wordOf c b)]

/-- For each opcode, the instruction its operand bytes make. -/
def decodeTable : List (Byte → Byte → Instr) :=
  decodeTable0 ++ decodeTable1 ++ decodeTable2 ++ decodeTable3 ++
  decodeTable4 ++ decodeTable5 ++ decodeTable6 ++ decodeTable7 ++
  decodeTable8 ++ decodeTable9 ++ decodeTableA ++ decodeTableB ++
  decodeTableC ++ decodeTableD ++ decodeTableE ++ decodeTableF

/-- The instruction of opcode `op` with first operand byte `b` and second operand byte `c`; a byte the format
has no place for is not looked at. -/
def decodeOp (op b c : Byte) : Instr := (decodeTable.getD op.toNat (fun _ _ => .nop)) b c

/-- Why a list of bytes holds no whole instruction. -/
inductive DecodeError where
  /-- there is no opcode byte -/
  | noOpcode
  /-- the list ends before the operand bytes of the opcode -/
  | missingOperand (op : Byte)
  deriving DecidableEq, Repr

/-- Decode the instruction at the head of a byte list and return it with the rest of the list (rule R100). -/
def decode : List Byte → Except DecodeError (Instr × List Byte)
  | [] => .error .noOpcode
  | op :: rest =>
    match (decodeRow op).mode.bytes, rest with
    | 1, rest => .ok (decodeOp op 0#8 0#8, rest)
    | 2, b :: rest => .ok (decodeOp op b 0#8, rest)
    | 3, b :: c :: rest => .ok (decodeOp op b c, rest)
    | _, _ => .error (.missingOperand op)

/-! ### From instructions to bytes -/

/-- The opcode byte of an instruction (rule R105). -/
def Instr.opcode : Instr → Byte
  | .brk => 0x00#8
  | .oraIndX _ => 0x01#8
  | .jam02 => 0x02#8
  | .sloIndX _ => 0x03#8
  | .nopZp04 _ => 0x04#8
  | .oraZp _ => 0x05#8
  | .aslZp _ => 0x06#8
  | .sloZp _ => 0x07#8
  | .php => 0x08#8
  | .oraImm _ => 0x09#8
  | .aslA => 0x0A#8
  | .ancImm0B _ => 0x0B#8
  | .nopAbs _ => 0x0C#8
  | .oraAbs _ => 0x0D#8
  | .aslAbs _ => 0x0E#8
  | .sloAbs _ => 0x0F#8
  | .bpl _ => 0x10#8
  | .oraIndY _ => 0x11#8
  | .jam12 => 0x12#8
  | .sloIndY _ => 0x13#8
  | .nopZpX14 _ => 0x14#8
  | .oraZpX _ => 0x15#8
  | .aslZpX _ => 0x16#8
  | .sloZpX _ => 0x17#8
  | .clc => 0x18#8
  | .oraAbsY _ => 0x19#8
  | .nop1A => 0x1A#8
  | .sloAbsY _ => 0x1B#8
  | .nopAbsX1C _ => 0x1C#8
  | .oraAbsX _ => 0x1D#8
  | .aslAbsX _ => 0x1E#8
  | .sloAbsX _ => 0x1F#8
  | .jsrAbs _ => 0x20#8
  | .andIndX _ => 0x21#8
  | .jam22 => 0x22#8
  | .rlaIndX _ => 0x23#8
  | .bitZp _ => 0x24#8
  | .andZp _ => 0x25#8
  | .rolZp _ => 0x26#8
  | .rlaZp _ => 0x27#8
  | .plp => 0x28#8
  | .andImm _ => 0x29#8
  | .rolA => 0x2A#8
  | .ancImm2B _ => 0x2B#8
  | .bitAbs _ => 0x2C#8
  | .andAbs _ => 0x2D#8
  | .rolAbs _ => 0x2E#8
  | .rlaAbs _ => 0x2F#8
  | .bmi _ => 0x30#8
  | .andIndY _ => 0x31#8
  | .jam32 => 0x32#8
  | .rlaIndY _ => 0x33#8
  | .nopZpX34 _ => 0x34#8
  | .andZpX _ => 0x35#8
  | .rolZpX _ => 0x36#8
  | .rlaZpX _ => 0x37#8
  | .sec => 0x38#8
  | .andAbsY _ => 0x39#8
  | .nop3A => 0x3A#8
  | .rlaAbsY _ => 0x3B#8
  | .nopAbsX3C _ => 0x3C#8
  | .andAbsX _ => 0x3D#8
  | .rolAbsX _ => 0x3E#8
  | .rlaAbsX _ => 0x3F#8
  | .rti => 0x40#8
  | .eorIndX _ => 0x41#8
  | .jam42 => 0x42#8
  | .sreIndX _ => 0x43#8
  | .nopZp44 _ => 0x44#8
  | .eorZp _ => 0x45#8
  | .lsrZp _ => 0x46#8
  | .sreZp _ => 0x47#8
  | .pha => 0x48#8
  | .eorImm _ => 0x49#8
  | .lsrA => 0x4A#8
  | .alrImm _ => 0x4B#8
  | .jmpAbs _ => 0x4C#8
  | .eorAbs _ => 0x4D#8
  | .lsrAbs _ => 0x4E#8
  | .sreAbs _ => 0x4F#8
  | .bvc _ => 0x50#8
  | .eorIndY _ => 0x51#8
  | .jam52 => 0x52#8
  | .sreIndY _ => 0x53#8
  | .nopZpX54 _ => 0x54#8
  | .eorZpX _ => 0x55#8
  | .lsrZpX _ => 0x56#8
  | .sreZpX _ => 0x57#8
  | .cli => 0x58#8
  | .eorAbsY _ => 0x59#8
  | .nop5A => 0x5A#8
  | .sreAbsY _ => 0x5B#8
  | .nopAbsX5C _ => 0x5C#8
  | .eorAbsX _ => 0x5D#8
  | .lsrAbsX _ => 0x5E#8
  | .sreAbsX _ => 0x5F#8
  | .rts => 0x60#8
  | .adcIndX _ => 0x61#8
  | .jam62 => 0x62#8
  | .rraIndX _ => 0x63#8
  | .nopZp64 _ => 0x64#8
  | .adcZp _ => 0x65#8
  | .rorZp _ => 0x66#8
  | .rraZp _ => 0x67#8
  | .pla => 0x68#8
  | .adcImm _ => 0x69#8
  | .rorA => 0x6A#8
  | .arrImm _ => 0x6B#8
  | .jmpInd _ => 0x6C#8
  | .adcAbs _ => 0x6D#8
  | .rorAbs _ => 0x6E#8
  | .rraAbs _ => 0x6F#8
  | .bvs _ => 0x70#8
  | .adcIndY _ => 0x71#8
  | .jam72 => 0x72#8
  | .rraIndY _ => 0x73#8
  | .nopZpX74 _ => 0x74#8
  | .adcZpX _ => 0x75#8
  | .rorZpX _ => 0x76#8
  | .rraZpX _ => 0x77#8
  | .sei => 0x78#8
  | .adcAbsY _ => 0x79#8
  | .nop7A => 0x7A#8
  | .rraAbsY _ => 0x7B#8
  | .nopAbsX7C _ => 0x7C#8
  | .adcAbsX _ => 0x7D#8
  | .rorAbsX _ => 0x7E#8
  | .rraAbsX _ => 0x7F#8
  | .nopImm80 _ => 0x80#8
  | .staIndX _ => 0x81#8
  | .nopImm82 _ => 0x82#8
  | .saxIndX _ => 0x83#8
  | .styZp _ => 0x84#8
  | .staZp _ => 0x85#8
  | .stxZp _ => 0x86#8
  | .saxZp _ => 0x87#8
  | .dey => 0x88#8
  | .nopImm89 _ => 0x89#8
  | .txa => 0x8A#8
  | .xaaImm _ => 0x8B#8
  | .styAbs _ => 0x8C#8
  | .staAbs _ => 0x8D#8
  | .stxAbs _ => 0x8E#8
  | .saxAbs _ => 0x8F#8
  | .bcc _ => 0x90#8
  | .staIndY _ => 0x91#8
  | .jam92 => 0x92#8
  | .shaIndY _ => 0x93#8
  | .styZpX _ => 0x94#8
  | .staZpX _ => 0x95#8
  | .stxZpY _ => 0x96#8
  | .saxZpY _ => 0x97#8
  | .tya => 0x98#8
  | .staAbsY _ => 0x99#8
  | .txs => 0x9A#8
  | .tasAbsY _ => 0x9B#8
  | .shyAbsX _ => 0x9C#8
  | .staAbsX _ => 0x9D#8
  | .shxAbsY _ => 0x9E#8
  | .shaAbsY _ => 0x9F#8
  | .ldyImm _ => 0xA0#8
  | .ldaIndX _ => 0xA1#8
  | .ldxImm _ => 0xA2#8
  | .laxIndX _ => 0xA3#8
  | .ldyZp _ => 0xA4#8
  | .ldaZp _ => 0xA5#8
  | .ldxZp _ => 0xA6#8
  | .laxZp _ => 0xA7#8
  | .tay => 0xA8#8
  | .ldaImm _ => 0xA9#8
  | .tax => 0xAA#8
  | .lxaImm _ => 0xAB#8
  | .ldyAbs _ => 0xAC#8
  | .ldaAbs _ => 0xAD#8
  | .ldxAbs _ => 0xAE#8
  | .laxAbs _ => 0xAF#8
  | .bcs _ => 0xB0#8
  | .ldaIndY _ => 0xB1#8
  | .jamB2 => 0xB2#8
  | .laxIndY _ => 0xB3#8
  | .ldyZpX _ => 0xB4#8
  | .ldaZpX _ => 0xB5#8
  | .ldxZpY _ => 0xB6#8
  | .laxZpY _ => 0xB7#8
  | .clv => 0xB8#8
  | .ldaAbsY _ => 0xB9#8
  | .tsx => 0xBA#8
  | .lasAbsY _ => 0xBB#8
  | .ldyAbsX _ => 0xBC#8
  | .ldaAbsX _ => 0xBD#8
  | .ldxAbsY _ => 0xBE#8
  | .laxAbsY _ => 0xBF#8
  | .cpyImm _ => 0xC0#8
  | .cmpIndX _ => 0xC1#8
  | .nopImmC2 _ => 0xC2#8
  | .dcpIndX _ => 0xC3#8
  | .cpyZp _ => 0xC4#8
  | .cmpZp _ => 0xC5#8
  | .decZp _ => 0xC6#8
  | .dcpZp _ => 0xC7#8
  | .iny => 0xC8#8
  | .cmpImm _ => 0xC9#8
  | .dex => 0xCA#8
  | .axsImm _ => 0xCB#8
  | .cpyAbs _ => 0xCC#8
  | .cmpAbs _ => 0xCD#8
  | .decAbs _ => 0xCE#8
  | .dcpAbs _ => 0xCF#8
  | .bne _ => 0xD0#8
  | .cmpIndY _ => 0xD1#8
  | .jamD2 => 0xD2#8
  | .dcpIndY _ => 0xD3#8
  | .nopZpXD4 _ => 0xD4#8
  | .cmpZpX _ => 0xD5#8
  | .decZpX _ => 0xD6#8
  | .dcpZpX _ => 0xD7#8
  | .cld => 0xD8#8
  | .cmpAbsY _ => 0xD9#8
  | .nopDA => 0xDA#8
  | .dcpAbsY _ => 0xDB#8
  | .nopAbsXDC _ => 0xDC#8
  | .cmpAbsX _ => 0xDD#8
  | .decAbsX _ => 0xDE#8
  | .dcpAbsX _ => 0xDF#8
  | .cpxImm _ => 0xE0#8
  | .sbcIndX _ => 0xE1#8
  | .nopImmE2 _ => 0xE2#8
  | .iscIndX _ => 0xE3#8
  | .cpxZp _ => 0xE4#8
  | .sbcZp _ => 0xE5#8
  | .incZp _ => 0xE6#8
  | .iscZp _ => 0xE7#8
  | .inx => 0xE8#8
  | .sbcImm _ => 0xE9#8
  | .nop => 0xEA#8
  | .sbcImmEB _ => 0xEB#8
  | .cpxAbs _ => 0xEC#8
  | .sbcAbs _ => 0xED#8
  | .incAbs _ => 0xEE#8
  | .iscAbs _ => 0xEF#8
  | .beq _ => 0xF0#8
  | .sbcIndY _ => 0xF1#8
  | .jamF2 => 0xF2#8
  | .iscIndY _ => 0xF3#8
  | .nopZpXF4 _ => 0xF4#8
  | .sbcZpX _ => 0xF5#8
  | .incZpX _ => 0xF6#8
  | .iscZpX _ => 0xF7#8
  | .sed => 0xF8#8
  | .sbcAbsY _ => 0xF9#8
  | .nopFA => 0xFA#8
  | .iscAbsY _ => 0xFB#8
  | .nopAbsXFC _ => 0xFC#8
  | .sbcAbsX _ => 0xFD#8
  | .incAbsX _ => 0xFE#8
  | .iscAbsX _ => 0xFF#8

/-- The operand of an instruction (rule R106). -/
def Instr.operand : Instr → Operand
  | .brk => .implied
  | .oraIndX z => .mem (.indirectX z)
  | .jam02 => .implied
  | .sloIndX z => .mem (.indirectX z)
  | .nopZp04 z => .mem (.zeropage z)
  | .oraZp z => .mem (.zeropage z)
  | .aslZp z => .mem (.zeropage z)
  | .sloZp z => .mem (.zeropage z)
  | .php => .implied
  | .oraImm v => .immediate v
  | .aslA => .accumulator
  | .ancImm0B v => .immediate v
  | .nopAbs a => .mem (.absolute a)
  | .oraAbs a => .mem (.absolute a)
  | .aslAbs a => .mem (.absolute a)
  | .sloAbs a => .mem (.absolute a)
  | .bpl d => .relative d
  | .oraIndY z => .mem (.indirectY z)
  | .jam12 => .implied
  | .sloIndY z => .mem (.indirectY z)
  | .nopZpX14 z => .mem (.zeropageX z)
  | .oraZpX z => .mem (.zeropageX z)
  | .aslZpX z => .mem (.zeropageX z)
  | .sloZpX z => .mem (.zeropageX z)
  | .clc => .implied
  | .oraAbsY a => .mem (.absoluteY a)
  | .nop1A => .implied
  | .sloAbsY a => .mem (.absoluteY a)
  | .nopAbsX1C a => .mem (.absoluteX a)
  | .oraAbsX a => .mem (.absoluteX a)
  | .aslAbsX a => .mem (.absoluteX a)
  | .sloAbsX a => .mem (.absoluteX a)
  | .jsrAbs a => .mem (.absolute a)
  | .andIndX z => .mem (.indirectX z)
  | .jam22 => .implied
  | .rlaIndX z => .mem (.indirectX z)
  | .bitZp z => .mem (.zeropage z)
  | .andZp z => .mem (.zeropage z)
  | .rolZp z => .mem (.zeropage z)
  | .rlaZp z => .mem (.zeropage z)
  | .plp => .implied
  | .andImm v => .immediate v
  | .rolA => .accumulator
  | .ancImm2B v => .immediate v
  | .bitAbs a => .mem (.absolute a)
  | .andAbs a => .mem (.absolute a)
  | .rolAbs a => .mem (.absolute a)
  | .rlaAbs a => .mem (.absolute a)
  | .bmi d => .relative d
  | .andIndY z => .mem (.indirectY z)
  | .jam32 => .implied
  | .rlaIndY z => .mem (.indirectY z)
  | .nopZpX34 z => .mem (.zeropageX z)
  | .andZpX z => .mem (.zeropageX z)
  | .rolZpX z => .mem (.zeropageX z)
  | .rlaZpX z => .mem (.zeropageX z)
  | .sec => .implied
  | .andAbsY a => .mem (.absoluteY a)
  | .nop3A => .implied
  | .rlaAbsY a => .mem (.absoluteY a)
  | .nopAbsX3C a => .mem (.absoluteX a)
  | .andAbsX a => .mem (.absoluteX a)
  | .rolAbsX a => .mem (.absoluteX a)
  | .rlaAbsX a => .mem (.absoluteX a)
  | .rti => .implied
  | .eorIndX z => .mem (.indirectX z)
  | .jam42 => .implied
  | .sreIndX z => .mem (.indirectX z)
  | .nopZp44 z => .mem (.zeropage z)
  | .eorZp z => .mem (.zeropage z)
  | .lsrZp z => .mem (.zeropage z)
  | .sreZp z => .mem (.zeropage z)
  | .pha => .implied
  | .eorImm v => .immediate v
  | .lsrA => .accumulator
  | .alrImm v => .immediate v
  | .jmpAbs a => .mem (.absolute a)
  | .eorAbs a => .mem (.absolute a)
  | .lsrAbs a => .mem (.absolute a)
  | .sreAbs a => .mem (.absolute a)
  | .bvc d => .relative d
  | .eorIndY z => .mem (.indirectY z)
  | .jam52 => .implied
  | .sreIndY z => .mem (.indirectY z)
  | .nopZpX54 z => .mem (.zeropageX z)
  | .eorZpX z => .mem (.zeropageX z)
  | .lsrZpX z => .mem (.zeropageX z)
  | .sreZpX z => .mem (.zeropageX z)
  | .cli => .implied
  | .eorAbsY a => .mem (.absoluteY a)
  | .nop5A => .implied
  | .sreAbsY a => .mem (.absoluteY a)
  | .nopAbsX5C a => .mem (.absoluteX a)
  | .eorAbsX a => .mem (.absoluteX a)
  | .lsrAbsX a => .mem (.absoluteX a)
  | .sreAbsX a => .mem (.absoluteX a)
  | .rts => .implied
  | .adcIndX z => .mem (.indirectX z)
  | .jam62 => .implied
  | .rraIndX z => .mem (.indirectX z)
  | .nopZp64 z => .mem (.zeropage z)
  | .adcZp z => .mem (.zeropage z)
  | .rorZp z => .mem (.zeropage z)
  | .rraZp z => .mem (.zeropage z)
  | .pla => .implied
  | .adcImm v => .immediate v
  | .rorA => .accumulator
  | .arrImm v => .immediate v
  | .jmpInd a => .indirect a
  | .adcAbs a => .mem (.absolute a)
  | .rorAbs a => .mem (.absolute a)
  | .rraAbs a => .mem (.absolute a)
  | .bvs d => .relative d
  | .adcIndY z => .mem (.indirectY z)
  | .jam72 => .implied
  | .rraIndY z => .mem (.indirectY z)
  | .nopZpX74 z => .mem (.zeropageX z)
  | .adcZpX z => .mem (.zeropageX z)
  | .rorZpX z => .mem (.zeropageX z)
  | .rraZpX z => .mem (.zeropageX z)
  | .sei => .implied
  | .adcAbsY a => .mem (.absoluteY a)
  | .nop7A => .implied
  | .rraAbsY a => .mem (.absoluteY a)
  | .nopAbsX7C a => .mem (.absoluteX a)
  | .adcAbsX a => .mem (.absoluteX a)
  | .rorAbsX a => .mem (.absoluteX a)
  | .rraAbsX a => .mem (.absoluteX a)
  | .nopImm80 v => .immediate v
  | .staIndX z => .mem (.indirectX z)
  | .nopImm82 v => .immediate v
  | .saxIndX z => .mem (.indirectX z)
  | .styZp z => .mem (.zeropage z)
  | .staZp z => .mem (.zeropage z)
  | .stxZp z => .mem (.zeropage z)
  | .saxZp z => .mem (.zeropage z)
  | .dey => .implied
  | .nopImm89 v => .immediate v
  | .txa => .implied
  | .xaaImm v => .immediate v
  | .styAbs a => .mem (.absolute a)
  | .staAbs a => .mem (.absolute a)
  | .stxAbs a => .mem (.absolute a)
  | .saxAbs a => .mem (.absolute a)
  | .bcc d => .relative d
  | .staIndY z => .mem (.indirectY z)
  | .jam92 => .implied
  | .shaIndY z => .mem (.indirectY z)
  | .styZpX z => .mem (.zeropageX z)
  | .staZpX z => .mem (.zeropageX z)
  | .stxZpY z => .mem (.zeropageY z)
  | .saxZpY z => .mem (.zeropageY z)
  | .tya => .implied
  | .staAbsY a => .mem (.absoluteY a)
  | .txs => .implied
  | .tasAbsY a => .mem (.absoluteY a)
  | .shyAbsX a => .mem (.absoluteX a)
  | .staAbsX a => .mem (.absoluteX a)
  | .shxAbsY a => .mem (.absoluteY a)
  | .shaAbsY a => .mem (.absoluteY a)
  | .ldyImm v => .immediate v
  | .ldaIndX z => .mem (.indirectX z)
  | .ldxImm v => .immediate v
  | .laxIndX z => .mem (.indirectX z)
  | .ldyZp z => .mem (.zeropage z)
  | .ldaZp z => .mem (.zeropage z)
  | .ldxZp z => .mem (.zeropage z)
  | .laxZp z => .mem (.zeropage z)
  | .tay => .implied
  | .ldaImm v => .immediate v
  | .tax => .implied
  | .lxaImm v => .immediate v
  | .ldyAbs a => .mem (.absolute a)
  | .ldaAbs a => .mem (.absolute a)
  | .ldxAbs a => .mem (.absolute a)
  | .laxAbs a => .mem (.absolute a)
  | .bcs d => .relative d
  | .ldaIndY z => .mem (.indirectY z)
  | .jamB2 => .implied
  | .laxIndY z => .mem (.indirectY z)
  | .ldyZpX z => .mem (.zeropageX z)
  | .ldaZpX z => .mem (.zeropageX z)
  | .ldxZpY z => .mem (.zeropageY z)
  | .laxZpY z => .mem (.zeropageY z)
  | .clv => .implied
  | .ldaAbsY a => .mem (.absoluteY a)
  | .tsx => .implied
  | .lasAbsY a => .mem (.absoluteY a)
  | .ldyAbsX a => .mem (.absoluteX a)
  | .ldaAbsX a => .mem (.absoluteX a)
  | .ldxAbsY a => .mem (.absoluteY a)
  | .laxAbsY a => .mem (.absoluteY a)
  | .cpyImm v => .immediate v
  | .cmpIndX z => .mem (.indirectX z)
  | .nopImmC2 v => .immediate v
  | .dcpIndX z => .mem (.indirectX z)
  | .cpyZp z => .mem (.zeropage z)
  | .cmpZp z => .mem (.zeropage z)
  | .decZp z => .mem (.zeropage z)
  | .dcpZp z => .mem (.zeropage z)
  | .iny => .implied
  | .cmpImm v => .immediate v
  | .dex => .implied
  | .axsImm v => .immediate v
  | .cpyAbs a => .mem (.absolute a)
  | .cmpAbs a => .mem (.absolute a)
  | .decAbs a => .mem (.absolute a)
  | .dcpAbs a => .mem (.absolute a)
  | .bne d => .relative d
  | .cmpIndY z => .mem (.indirectY z)
  | .jamD2 => .implied
  | .dcpIndY z => .mem (.indirectY z)
  | .nopZpXD4 z => .mem (.zeropageX z)
  | .cmpZpX z => .mem (.zeropageX z)
  | .decZpX z => .mem (.zeropageX z)
  | .dcpZpX z => .mem (.zeropageX z)
  | .cld => .implied
  | .cmpAbsY a => .mem (.absoluteY a)
  | .nopDA => .implied
  | .dcpAbsY a => .mem (.absoluteY a)
  | .nopAbsXDC a => .mem (.absoluteX a)
  | .cmpAbsX a => .mem (.absoluteX a)
  | .decAbsX a => .mem (.absoluteX a)
  | .dcpAbsX a => .mem (.absoluteX a)
  | .cpxImm v => .immediate v
  | .sbcIndX z => .mem (.indirectX z)
  | .nopImmE2 v => .immediate v
  | .iscIndX z => .mem (.indirectX z)
  | .cpxZp z => .mem (.zeropage z)
  | .sbcZp z => .mem (.zeropage z)
  | .incZp z => .mem (.zeropage z)
  | .iscZp z => .mem (.zeropage z)
  | .inx => .implied
  | .sbcImm v => .immediate v
  | .nop => .implied
  | .sbcImmEB v => .immediate v
  | .cpxAbs a => .mem (.absolute a)
  | .sbcAbs a => .mem (.absolute a)
  | .incAbs a => .mem (.absolute a)
  | .iscAbs a => .mem (.absolute a)
  | .beq d => .relative d
  | .sbcIndY z => .mem (.indirectY z)
  | .jamF2 => .implied
  | .iscIndY z => .mem (.indirectY z)
  | .nopZpXF4 z => .mem (.zeropageX z)
  | .sbcZpX z => .mem (.zeropageX z)
  | .incZpX z => .mem (.zeropageX z)
  | .iscZpX z => .mem (.zeropageX z)
  | .sed => .implied
  | .sbcAbsY a => .mem (.absoluteY a)
  | .nopFA => .implied
  | .iscAbsY a => .mem (.absoluteY a)
  | .nopAbsXFC a => .mem (.absoluteX a)
  | .sbcAbsX a => .mem (.absoluteX a)
  | .incAbsX a => .mem (.absoluteX a)
  | .iscAbsX a => .mem (.absoluteX a)

/-- The bytes of an instruction in ascending address order: the opcode, then the operand bytes. -/
def encode (i : Instr) : List Byte := i.opcode :: i.operand.bytes

/-- The row of the opcode table an instruction belongs to. -/
def Instr.row (i : Instr) : Row := decodeRow i.opcode

/-! ### The opcode table's words -/

/-- Byte `k` of an instruction whose bits are `w` (bit 0 the least significant bit of the first byte). -/
def tableByte (w k : Nat) : Byte := BitVec.ofNat 8 (w >>> (8 * k))

/-- The instruction this decoder reads from an instruction whose bits are `w`, every bit at or above `nbits`
being 0. The longest instruction has three bytes. -/
def decodeTableWord (nbits w : Nat) : Option Instr :=
  match decode [tableByte (w % 2 ^ nbits) 0, tableByte (w % 2 ^ nbits) 1, tableByte (w % 2 ^ nbits) 2] with
  | .ok (i, _) => some i
  | .error _ => none

end Sys2Proof
end

