-- ==== Sys2Proof/Config.lean ====
section
/-! DEFINITION. The parameters of spec/00_scope.md rule R7 (`cfg`): what the host fixes when it constructs
the machine. Nothing here changes while the machine runs; a claim holds for every value of them. -/

namespace Sys2Proof

/-- A memory as data: (index, byte) pairs in one canonical form (`Memory.wf`): indices strictly rising,
no entry equal to what an unlisted index reads as. -/
abbrev Memory := List Host.Cell

/-- What an unlisted index of a memory reads as. DESIGN CHOICE (log entry 2), unsafe: the spec leaves the
contents of the RAMs at power-on open (rule R7, D33); a memory that lists nothing is all zero here. -/
def Memory.blank : Byte := 0#8

/-- The mirroring mode of the cartridge header (rules R7, R421). -/
inductive HeaderMirroring where
  | horizontal | vertical | fourScreen
  deriving DecidableEq, Repr

/-- `cfg.unstable_policy` of rule R7: what the 20 opcodes of classes (b) and (c) do (rule R107). -/
inductive UnstablePolicy where
  | nop | refuse
  deriving DecidableEq, Repr

/-- `cfg.cart` of rules R7 and R421 as the loader hands it over, not yet validated. The image bytes are
held sparsely: an unlisted byte of an image is `Memory.blank`. -/
structure CartImage where
  mapperId : Nat
  prgLen : Nat
  prg : Memory
  chrLen : Nat
  chr : Memory
  mirroring : HeaderMirroring
  deriving DecidableEq, Repr

/-- The parameters that a running machine still reads. -/
structure Params where
  /-- `cfg.a12_filter_dots`, read by rule R459. -/
  a12FilterDots : Nat := 10
  /-- `cfg.unstable_policy`, read by rule R107. -/
  unstablePolicy : UnstablePolicy := .nop
  deriving DecidableEq, Repr

/-- `cfg` of rule R7. The six initial memories are arbitrary; the default value given to each here is the
blank memory (log entry 2). -/
structure Cfg where
  cart : CartImage
  ramInit : Memory := []
  prgramInit : Memory := []
  vramInit : Memory := []
  oamInit : Memory := []
  paletteInit : Memory := []
  chrramInit : Memory := []
  params : Params := {}
  deriving DecidableEq, Repr

/-- The two load-time errors of rule R420. -/
inductive LoadError where
  /-- "the id is not 0, 1 or 4". -/
  | unsupportedMapper (id : Nat)
  /-- "a size that rule R421 does not accept". -/
  | malformedRom
  deriving DecidableEq, Repr

/-- The three supported boards (rule R421). -/
inductive Board where
  | nrom | mmc1 | mmc3
  deriving DecidableEq, Repr

end Sys2Proof
end

