-- ==== Sys2Proof/Machine/State.lean ====
section
/-! DEFINITION. The state of the machine (spec/10_state.md, with the fields of spec/61_ppu.md section 1,
spec/62_mapper.md and spec/63_io_and_scheduler.md), plain data throughout, and the state after power-on. -/

namespace Sys2Proof.Machine

/-! ### The CPU -/

/-- The bits of the status register (rule R23). -/
inductive Flag where
  | C | Z | I | D | B | U | V | N
  deriving DecidableEq, Repr

/-- The CPU registers (rules R20 to R23). -/
structure Cpu where
  a : Byte
  x : Byte
  y : Byte
  sp : Byte
  p : Byte
  pc : Addr
  deriving DecidableEq, Repr

/-! ### The PPU (rules R341 to R345) -/

/-- One entry of the sprite evaluation result `sec` (rule R345). -/
structure SecEntry where
  y : Byte
  tile : Byte
  attr : Byte
  x : Byte
  deriving DecidableEq, Repr

/-- One sprite slot (rule R345). -/
structure SpriteSlot where
  ptLo : Byte
  ptHi : Byte
  attr : Byte
  x : Byte
  deriving DecidableEq, Repr

/-- The PPU's state. `v`, `t` and `x` are the loopy latches of rule R343, `w` the write toggle of rule R344. -/
structure Ppu where
  ctrl : Byte
  mask : Byte
  oamaddr : Byte
  vblank : Bool
  sprite0hit : Bool
  overflow : Bool
  v : BitVec 15
  t : BitVec 15
  x : BitVec 3
  w : Bool
  readbuf : Byte
  scanline : Nat
  dot : Nat
  frame : Nat
  ticks : Nat
  ntLatch : Byte
  atLatch : BitVec 2
  ptLoLatch : Byte
  ptHiLatch : Byte
  bgLo : BitVec 16
  bgHi : BitVec 16
  atLo : BitVec 16
  atHi : BitVec 16
  sec : Vector SecEntry 8
  secCount : Nat
  secHas0 : Bool
  slots : Vector SpriteSlot 8
  spriteCount : Nat
  spr0OnLine : Bool
  /-- The low pattern byte of the sprite fetch in progress: read at dot b+4 and loaded into the slot at dot b+6
  (rule R383). The rule implies this byte without naming where it is held (log entry 4). -/
  sprLoLatch : Byte
  vram : Memory
  oam : Memory
  palette : Memory
  /-- Cell `[s][px]` of rule R387 is index `256 * s + px`. -/
  framebuffer : Memory
  frameReady : Bool
  deriving DecidableEq, Repr

/-! ### The cartridge -/

/-- The memories and fixed wiring of the cartridge (rules R421, R422). `prgUnits`, `prg`, `chrUnits` and
`mirroring` never change; `chr` changes only when it is CHR RAM, that is when `chrUnits = 0`. -/
structure Cart where
  prgUnits : Nat
  prg : Memory
  chrUnits : Nat
  chr : Memory
  prgram : Memory
  mirroring : HeaderMirroring
  deriving DecidableEq, Repr

/-- The registers of MMC1 (rule R440). -/
structure Mmc1 where
  sr : BitVec 5
  cnt : Nat
  control : BitVec 5
  chr0 : BitVec 5
  chr1 : BitVec 5
  prgbank : BitVec 5
  deriving DecidableEq, Repr

/-- The registers of MMC3 and its A12 filter (rule R450). `bank` is `R`. -/
structure Mmc3 where
  bankSelect : Byte
  bank : Vector Byte 8
  mirror : BitVec 1
  ramProtect : Byte
  irqLatch : Byte
  irqCounter : Byte
  irqReload : Bool
  irqEnable : Bool
  irqPending : Bool
  a12 : Bool
  a12LowSince : Nat
  deriving DecidableEq, Repr

/-- The board and its registers; NROM has none (rule R430). -/
inductive Mapper where
  | nrom
  | mmc1 (r : Mmc1)
  | mmc3 (r : Mmc3)
  deriving DecidableEq, Repr

/-! ### The I/O block and the host -/

/-- One controller port (rule R472). -/
structure Controller where
  strobe : Bool
  shift : Byte
  buttons : Byte
  deriving DecidableEq, Repr

/-- What the host does at one instruction boundary (rule R488). -/
structure HostTurn where
  /-- stop the loop -/
  stop : Bool := false
  /-- assert reset -/
  reset : Bool := false
  /-- copy the framebuffer, if one is ready, and clear `frame_ready` -/
  takeFrame : Bool := false
  /-- write `ctl[0].buttons` -/
  buttons0 : Option Byte := none
  /-- write `ctl[1].buttons` -/
  buttons1 : Option Byte := none
  deriving DecidableEq, Repr

/-- The whole machine. -/
structure State where
  cpu : Cpu
  /-- `nmi_pending` (rule R32) -/
  nmiPending : Bool
  /-- `bus.last`, the open-bus latch (rule R34) -/
  busLast : Byte
  /-- the total-cycle counter (rule R35) -/
  cyc : Nat
  /-- internal RAM, 2,048 bytes (rule R37) -/
  ram : Memory
  ppu : Ppu
  cart : Cart
  mapper : Mapper
  /-- `ctl[0]`, port $4016 -/
  ctl0 : Controller
  /-- `ctl[1]`, port $4017 -/
  ctl1 : Controller
  params : Params
  /-- The MODEL's own field: what the host does at the boundaries to come, the next one first (rules R487,
  R488). Every step takes one; an empty list means that the host does nothing (log entry 6). -/
  host : List HostTurn
  deriving DecidableEq, Repr

/-- Faults. There are none: "There is no fault, no stuck state and no refusal at run time" (rule R9). The type
has no constructor, so that no step and no meaning can end in one. -/
inductive Fault where
  deriving DecidableEq, Repr

/-- Refusals. -/
inductive Refusal where
  /-- An instruction without a meaning yet, raised in `exec`'s arm only. Safe. -/
  | notModelled (mnemonic : String)
  /-- Raised by the 20 opcodes of classes (b) and (c) when, and only when, the construction parameter
  `cfg.unstable_policy` is `refuse` (rule R107); by default they execute. Safe. -/
  | unstableOpcode (kind : Mnemonic)
  /-- Raised by a step at whose boundary the host stops the loop (rules R482, R488, R489). Safe. -/
  | hostStopped
  deriving DecidableEq, Repr

/-- What a meaning and a step answer. -/
abbrev Result := Host.Outcome State Fault Refusal

/-! ### Power-on values (rules R50, R51) and the state after power-on (rule R502) -/

/-- The CPU after the power-on reset sequence, with `pc` the reset vector (rule R50, second column). -/
def Cpu.afterReset (pc : Addr) : Cpu :=
  { a := 0x00#8, x := 0x00#8, y := 0x00#8, sp := 0xFD#8, p := 0x24#8, pc := pc }

/-- The PPU at power-on (rule R51) with the given memories. -/
def Ppu.powerOn (vram oam palette : Memory) : Ppu :=
  { ctrl := 0#8, mask := 0#8, oamaddr := 0#8, vblank := false, sprite0hit := false, overflow := false,
    v := 0#15, t := 0#15, x := 0#3, w := false, readbuf := 0#8,
    scanline := 0, dot := 0, frame := 0, ticks := 0,
    ntLatch := 0#8, atLatch := 0#2, ptLoLatch := 0#8, ptHiLatch := 0#8,
    bgLo := 0#16, bgHi := 0#16, atLo := 0#16, atHi := 0#16,
    sec := Vector.replicate 8 ⟨0#8, 0#8, 0#8, 0#8⟩, secCount := 0, secHas0 := false,
    slots := Vector.replicate 8 ⟨0#8, 0#8, 0#8, 0#8⟩, spriteCount := 0, spr0OnLine := false,
    sprLoLatch := 0#8,
    vram := vram, oam := oam, palette := palette, framebuffer := [], frameReady := false }

/-- A controller at power-on (rule R51). -/
def Controller.powerOn : Controller := { strobe := false, shift := 0#8, buttons := 0#8 }

/-- The cartridge in the machine of `State.reset`: an NROM board with one 16KB PRG bank whose image lists
nothing, CHR RAM and horizontal mirroring. DESIGN CHOICE (log entry 3): the image is the host's (rule R7). -/
def Cart.empty : Cart :=
  { prgUnits := 1, prg := [], chrUnits := 0, chr := [], prgram := [], mirroring := .horizontal }

/-- The machine right after power-on, at its first boundary (rules R481, R502): A, X, Y zero, SP $FD, P $24,
PC the reset vector, `cyc` 7 and the PPU at scanline 0, dot 21 after the 21 dots of the reset sequence. The
cartridge is `Cart.empty` (log entry 3), so the reset vector is $0000 and `bus.last`, its high byte, is $00; the
memories list nothing (log entry 2). -/
def State.reset : State :=
  { cpu := Cpu.afterReset 0x0000#16
    nmiPending := false
    busLast := 0#8
    cyc := 7
    ram := []
    ppu := { Ppu.powerOn [] [] [] with dot := 21, ticks := 21 }
    cart := Cart.empty
    mapper := .nrom
    ctl0 := Controller.powerOn
    ctl1 := Controller.powerOn
    params := {}
    host := [] }

end Sys2Proof.Machine
end

