-- ==== Sys2Proof/Machine/Memory.lean ====
section
/-! DEFINITION. Reading and writing one byte of a memory held as data. Every array of the spec (RAM, PRG RAM,
PRG ROM, CHR, nametables, OAM, palette, framebuffer) is read and written through these two operations, which
keep the canonical form `Memory.wf`. -/

namespace Sys2Proof

/-- The byte at index `i`: the listed one, else `Memory.blank`. -/
def Memory.read : Memory → Nat → Byte
  | [], _ => Memory.blank
  | (j, v) :: m, i => if i = j then v else Memory.read m i

/-- Store `v` at index `i`, keeping indices rising; storing the blank value removes the entry. -/
def Memory.write : Memory → Nat → Byte → Memory
  | [], i, v => if v = Memory.blank then [] else [(i, v)]
  | (j, u) :: m, i, v =>
    if i < j then
      if v = Memory.blank then (j, u) :: m else (i, v) :: (j, u) :: m
    else if i = j then
      if v = Memory.blank then m else (i, v) :: m
    else (j, u) :: Memory.write m i v

/-- The canonical memory of `size` bytes that a list of cells describes; a later cell wins, and a cell outside
the memory is dropped. -/
def Memory.ofCells (size : Nat) (cells : List Host.Cell) : Memory :=
  cells.foldl (fun m c => if c.1 < size then m.write c.1 c.2 else m) []

end Sys2Proof
end

