-- ==== Sys2Proof/Machine/Mapper.lean ====
section
/-! DEFINITION. The cartridge mapper (spec/62_mapper.md): address translation, register writes, mirroring and the
MMC3 scanline counter of the boards NROM, MMC1 and MMC3. Every translation is computed from the registers as
they are at the access (rule R423). -/

namespace Sys2Proof.Machine

/-- `prg_len` of rule R422. -/
def Cart.prgLen (c : Cart) : Nat := 16384 * c.prgUnits

/-- `chr_len` of rule R422. -/
def Cart.chrLen (c : Cart) : Nat := 8192 * max c.chrUnits 1

/-- The CHR memory is RAM (rule R422: `m = 0`). -/
def Cart.hasChrRam (c : Cart) : Bool := c.chrUnits == 0

/-! ### Mirroring (rule R425) -/

/-- The five nametable arrangements of rule R425. -/
inductive Mirroring where
  | horizontal | vertical | singleLow | singleHigh | fourScreen
  deriving DecidableEq, Repr

/-- The arrangement a header mode names. -/
def headerMirroring : HeaderMirroring → Mirroring
  | .horizontal => .horizontal
  | .vertical => .vertical
  | .fourScreen => .fourScreen

/-- MMC1's mirroring field, `control[1:0]` (rule R444). -/
def mmc1Mirroring (r : Mmc1) : Mirroring :=
  if r.control &&& 3#5 = 0#5 then .singleLow
  else if r.control &&& 3#5 = 1#5 then .singleHigh
  else if r.control &&& 3#5 = 2#5 then .vertical
  else .horizontal

/-- MMC3's mirroring register, overridden by a four-screen header (rules R425, R456). -/
def mmc3Mirroring (c : Cart) (r : Mmc3) : Mirroring :=
  if c.mirroring = .fourScreen then .fourScreen
  else if r.mirror = 0#1 then .vertical else .horizontal

/-- `MapperMirroring()` (rule R425). -/
def mapperMirroring (c : Cart) : Mapper → Mirroring
  | .nrom => headerMirroring c.mirroring
  | .mmc1 r => mmc1Mirroring r
  | .mmc3 r => mmc3Mirroring c r

/-! ### PRG translation: the offset in PRG ROM of a CPU address in $8000 to $FFFF -/

/-- The 16KB bank MMC1 puts at `a` (rule R445). -/
def mmc1PrgBank (c : Cart) (r : Mmc1) (a : Addr) : Nat :=
  let b := (r.prgbank &&& 0x0F#5).toNat
  let upper := decide (0xC000 ≤ a.toNat)
  if r.control &&& 0x0C#5 = 0x08#5 then if upper then b else 0
  else if r.control &&& 0x0C#5 = 0x0C#5 then if upper then c.prgUnits - 1 else b
  else if upper then (r.prgbank &&& 0x0E#5).toNat + 1 else (r.prgbank &&& 0x0E#5).toNat

/-- The 8KB bank MMC3 puts at `a` (rule R454). -/
def mmc3PrgBank (c : Cart) (r : Mmc3) (a : Addr) : Nat :=
  let n8 := c.prgLen / 8192
  let r6 := (r.bank[6] &&& 0x3F#8).toNat
  let r7 := (r.bank[7] &&& 0x3F#8).toNat
  let swapped := r.bankSelect.getLsbD 6
  if a.toNat < 0xA000 then if swapped then n8 - 2 else r6
  else if a.toNat < 0xC000 then r7
  else if a.toNat < 0xE000 then if swapped then r6 else n8 - 2
  else n8 - 1

/-- The offset in PRG ROM of address `a` in $8000 to $FFFF (rules R432, R445, R454). -/
def prgOffset (c : Cart) (m : Mapper) (a : Addr) : Nat :=
  match m with
  | .nrom => (a.toNat - 0x8000) % c.prgLen
  | .mmc1 r => (mmc1PrgBank c r a * 16384 + (a &&& 0x3FFF#16).toNat) % c.prgLen
  | .mmc3 r => (mmc3PrgBank c r a % (c.prgLen / 8192)) * 8192 + (a &&& 0x1FFF#16).toNat

/-! ### CHR translation: the offset in CHR memory of a PPU address in $0000 to $1FFF -/

/-- MMC1's CHR offset before reduction modulo `chr_len` (rule R446). -/
def mmc1ChrOffset (r : Mmc1) (a : Nat) : Nat :=
  if r.control.getLsbD 4 then
    if a < 0x1000 then r.chr0.toNat * 4096 + a else r.chr1.toNat * 4096 + (a - 0x1000)
  else (r.chr0 &&& 0x1E#5).toNat * 4096 + a

/-- The 1KB bank MMC3 puts at the address `a'` of rule R455. -/
def mmc3ChrBank (r : Mmc3) (a' : Nat) : Byte :=
  if a' < 0x0400 then r.bank[0] &&& 0xFE#8
  else if a' < 0x0800 then r.bank[0] ||| 1#8
  else if a' < 0x0C00 then r.bank[1] &&& 0xFE#8
  else if a' < 0x1000 then r.bank[1] ||| 1#8
  else if a' < 0x1400 then r.bank[2]
  else if a' < 0x1800 then r.bank[3]
  else if a' < 0x1C00 then r.bank[4]
  else r.bank[5]

/-- The offset in CHR memory of PPU address `a` in $0000 to $1FFF (rules R434, R446, R455). -/
def chrOffset (c : Cart) (m : Mapper) (a : Nat) : Nat :=
  match m with
  | .nrom => a
  | .mmc1 r => mmc1ChrOffset r a % c.chrLen
  | .mmc3 r =>
    let a' := a ^^^ (if r.bankSelect.getLsbD 7 then 0x1000 else 0)
    ((mmc3ChrBank r a').toNat % (c.chrLen / 1024)) * 1024 + a % 1024

/-- `MapperChrRead(a)` (rule R423). -/
def mapperChrRead (c : Cart) (m : Mapper) (a : Nat) : Byte := c.chr.read (chrOffset c m a)

/-- `MapperChrWrite(a, v)` (rule R423): ignored when the CHR memory is ROM. -/
def mapperChrWrite (c : Cart) (m : Mapper) (a : Nat) (v : Byte) : Cart :=
  if c.hasChrRam then { c with chr := c.chr.write (chrOffset c m a) v } else c

/-! ### PRG RAM protection (rules R427, R457) -/

/-- PRG RAM answers reads. -/
def Mapper.ramReadable : Mapper → Bool
  | .nrom | .mmc1 _ => true
  | .mmc3 r => r.ramProtect.getLsbD 7

/-- PRG RAM takes writes. -/
def Mapper.ramWritable : Mapper → Bool
  | .nrom | .mmc1 _ => true
  | .mmc3 r => r.ramProtect.getLsbD 7 && !r.ramProtect.getLsbD 6

/-! ### Registers -/

/-- The register that MMC1's fifth write loads, by `a[14:13]` (rule R442). -/
def mmc1Load (r : Mmc1) (a : Addr) (sr : BitVec 5) : Mmc1 :=
  if a &&& 0x6000#16 = 0x0000#16 then { r with control := sr }
  else if a &&& 0x6000#16 = 0x2000#16 then { r with chr0 := sr }
  else if a &&& 0x6000#16 = 0x4000#16 then { r with chr1 := sr }
  else { r with prgbank := sr }

/-- A CPU write to MMC1's registers (rule R442). -/
def mmc1Write (r : Mmc1) (a : Addr) (v : Byte) : Mmc1 :=
  if v.getLsbD 7 then { r with sr := 0#5, cnt := 0, control := r.control ||| 0x0C#5 }
  else
    let sr := (r.sr >>> 1) ||| (if v.getLsbD 0 then 0x10#5 else 0#5)
    if r.cnt = 4 then { mmc1Load r a sr with sr := 0#5, cnt := 0 }
    else { r with sr := sr, cnt := r.cnt + 1 }

/-- A CPU write to MMC3's registers, decoded by `a & $E001` (rule R452). -/
def mmc3Write (r : Mmc3) (a : Addr) (v : Byte) : Mmc3 :=
  let k := a &&& 0xE001#16
  if k = 0x8000#16 then { r with bankSelect := v }
  else if k = 0x8001#16 then { r with bank := r.bank.setIfInBounds (r.bankSelect &&& 7#8).toNat v }
  else if k = 0xA000#16 then { r with mirror := v.extractLsb' 0 1 }
  else if k = 0xA001#16 then { r with ramProtect := v }
  else if k = 0xC000#16 then { r with irqLatch := v }
  else if k = 0xC001#16 then { r with irqCounter := 0#8, irqReload := true }
  else if k = 0xE000#16 then { r with irqEnable := false, irqPending := false }
  else { r with irqEnable := true }

/-- A CPU write to $8000 to $FFFF (rule R427): to the board's registers, never to memory. -/
def Mapper.writeReg (m : Mapper) (a : Addr) (v : Byte) : Mapper :=
  match m with
  | .nrom => .nrom
  | .mmc1 r => .mmc1 (mmc1Write r a v)
  | .mmc3 r => .mmc3 (mmc3Write r a v)

/-! ### The IRQ line and the scanline counter -/

/-- `MapperIrqPending()` (rule R424): the whole IRQ line of the machine. -/
def Mapper.irqPending : Mapper → Bool
  | .nrom | .mmc1 _ => false
  | .mmc3 r => r.irqPending

/-- `ClockCounter()` of rule R458. The reload flag is false afterwards in both branches: the second is taken only
when it was. -/
def mmc3ClockCounter (r : Mmc3) : Mmc3 :=
  let counter := if r.irqCounter = 0#8 ∨ r.irqReload = true then r.irqLatch else r.irqCounter - 1#8
  { r with
    irqCounter := counter
    irqReload := false
    irqPending := r.irqPending || (counter == 0#8 && r.irqEnable) }

/-- The A12 filter of rule R459; `filter` is `cfg.a12_filter_dots`. -/
def mmc3Notify (filter : Nat) (r : Mmc3) (a : BitVec 14) (now : Nat) : Mmc3 :=
  if a.getLsbD 12 then
    if r.a12 then r
    else
      let r := if filter ≤ now - r.a12LowSince then mmc3ClockCounter r else r
      { r with a12 := true }
  else if r.a12 then { r with a12 := false, a12LowSince := now }
  else r

/-- `MapperNotifyAddr(a, now)` (rules R363, R426). -/
def Mapper.notify (filter : Nat) (m : Mapper) (a : BitVec 14) (now : Nat) : Mapper :=
  match m with
  | .nrom => .nrom
  | .mmc1 r => .mmc1 r
  | .mmc3 r => .mmc3 (mmc3Notify filter r a now)

/-! ### The CPU side (rules R423, R427) -/

/-- `MapperCpuRead(a)` for a in $4020 to $FFFF; `openBus` is `bus.last`. -/
def mapperCpuRead (c : Cart) (m : Mapper) (openBus : Byte) (a : Addr) : Byte :=
  if a.toNat < 0x6000 then openBus
  else if a.toNat < 0x8000 then
    if m.ramReadable then c.prgram.read (a.toNat - 0x6000) else openBus
  else c.prg.read (prgOffset c m a)

/-- The cartridge memories after `MapperCpuWrite(a, v)`: only PRG RAM stores. -/
def cartCpuWrite (c : Cart) (m : Mapper) (a : Addr) (v : Byte) : Cart :=
  if 0x6000 ≤ a.toNat ∧ a.toNat < 0x8000 ∧ m.ramWritable = true then
    { c with prgram := c.prgram.write (a.toNat - 0x6000) v }
  else c

/-- The registers after `MapperCpuWrite(a, v)`: only writes to $8000 and above reach them. -/
def mapperCpuWrite (m : Mapper) (a : Addr) (v : Byte) : Mapper :=
  if 0x8000 ≤ a.toNat then m.writeReg a v else m

/-! ### Power-on (rules R431, R441, R451) -/

/-- MMC1 at power-on (rule R441). -/
def mmc1PowerOn : Mmc1 := { sr := 0#5, cnt := 0, control := 0x0C#5, chr0 := 0#5, chr1 := 0#5, prgbank := 0#5 }

/-- MMC3 at power-on (rule R451). -/
def mmc3PowerOn (h : HeaderMirroring) : Mmc3 :=
  { bankSelect := 0#8, bank := #v[0#8, 2#8, 4#8, 5#8, 6#8, 7#8, 0#8, 1#8],
    mirror := if h = .horizontal then 1#1 else 0#1, ramProtect := 0x80#8,
    irqLatch := 0#8, irqCounter := 0#8, irqReload := false, irqEnable := false, irqPending := false,
    a12 := false, a12LowSince := 0 }

/-- A board's registers at power-on. -/
def mapperPowerOn (h : HeaderMirroring) : Board → Mapper
  | .nrom => .nrom
  | .mmc1 => .mmc1 mmc1PowerOn
  | .mmc3 => .mmc3 (mmc3PowerOn h)

end Sys2Proof.Machine
end

