-- ==== Sys2Proof/Machine/Ppu.lean ====
section
/-! DEFINITION. The PPU (spec/61_ppu.md): its address space, the background and sprite pipelines, pixel output and
the tick. A tick reads the cartridge and changes only the PPU, the mapper's counter (through the address
notification) and `nmi_pending`; `Video` holds these three. -/

namespace Sys2Proof.Machine

/-- What a PPU tick can change (rules R363, R364, R366). -/
structure Video where
  ppu : Ppu
  mapper : Mapper
  nmi : Bool
  deriving DecidableEq, Repr

/-! ### Register fields (rule R342) -/

/-- PPUCTRL bit 2. -/
def Ppu.inc32 (p : Ppu) : Bool := p.ctrl.getLsbD 2
/-- PPUCTRL bit 3. -/
def Ppu.sprTable (p : Ppu) : Bool := p.ctrl.getLsbD 3
/-- PPUCTRL bit 4. -/
def Ppu.bgTable (p : Ppu) : Bool := p.ctrl.getLsbD 4
/-- PPUCTRL bit 5. -/
def Ppu.spr16 (p : Ppu) : Bool := p.ctrl.getLsbD 5
/-- PPUCTRL bit 7. -/
def Ppu.nmiEn (p : Ppu) : Bool := p.ctrl.getLsbD 7
/-- PPUMASK bit 0. -/
def Ppu.grey (p : Ppu) : Bool := p.mask.getLsbD 0
/-- PPUMASK bit 1. -/
def Ppu.bgLeft (p : Ppu) : Bool := p.mask.getLsbD 1
/-- PPUMASK bit 2. -/
def Ppu.sprLeft (p : Ppu) : Bool := p.mask.getLsbD 2
/-- PPUMASK bit 3. -/
def Ppu.showBg (p : Ppu) : Bool := p.mask.getLsbD 3
/-- PPUMASK bit 4. -/
def Ppu.showSpr (p : Ppu) : Bool := p.mask.getLsbD 4
/-- `rendering` of rule R368. -/
def Ppu.rendering (p : Ppu) : Bool := p.showBg || p.showSpr
/-- A visible line: 0 to 239 (rule R365). -/
def Ppu.visibleLine (p : Ppu) : Bool := decide (p.scanline < 240)
/-- A rendering line: a visible line or the pre-render line 261 (rule R365). -/
def Ppu.renderingLine (p : Ppu) : Bool := p.visibleLine || p.scanline == 261

/-! ### The PPU address space (rules R350 to R352) -/

/-- The physical 1KB page of logical nametable `n` (rule R351). -/
def nametablePage (m : Mirroring) (n : Nat) : Nat :=
  match m with
  | .horizontal => n / 2
  | .vertical => n % 2
  | .singleLow => 0
  | .singleHigh => 1
  | .fourScreen => n

/-- `NtIndex(a)` (rule R351). -/
def ntIndex (m : Mirroring) (a : BitVec 14) : Nat :=
  nametablePage m ((a.toNat / 1024) % 4) * 1024 + a.toNat % 1024

/-- `PalIndex(a)` (rule R352). -/
def palIndex (a : Nat) : Nat :=
  let i := a % 32
  if i % 4 = 0 ∧ 16 ≤ i then i - 16 else i

/-- The byte at a PPU address, without the notification (rule R350). -/
def ppuPeek (c : Cart) (m : Mapper) (p : Ppu) (a : BitVec 14) : Byte :=
  if a.toNat < 0x2000 then mapperChrRead c m a.toNat
  else if a.toNat < 0x3F00 then p.vram.read (ntIndex (mapperMirroring c m) a)
  else p.palette.read (palIndex a.toNat)

/-- `MapperNotifyAddr(a, ppu.ticks)` (rules R350, R363). -/
def Video.notify (filter : Nat) (a : BitVec 14) (s : Video) : Video :=
  { s with mapper := s.mapper.notify filter a s.ppu.ticks }

/-- `PpuRead(a)` (rule R350): notify, then read. -/
def Video.read (c : Cart) (filter : Nat) (a : BitVec 14) (s : Video) : Byte × Video :=
  let s := s.notify filter a
  (ppuPeek c s.mapper s.ppu a, s)

/-! ### The scroll latches (rules R343, R377 to R380) -/

/-- Copy the bits of `mask` from `src` into `dst`. -/
def copyBits (mask src dst : BitVec 15) : BitVec 15 := (dst &&& ~~~mask) ||| (src &&& mask)

/-- Fine Y, `v[14:12]`. -/
def fineY (v : BitVec 15) : BitVec 14 := (v >>> 12).setWidth 14

/-- Coarse X increment (rule R377). -/
def incCoarseX (v : BitVec 15) : BitVec 15 :=
  if v &&& 0x001F#15 = 0x001F#15 then (v &&& ~~~0x001F#15) ^^^ 0x0400#15 else v + 1#15

/-- Y increment (rule R378). -/
def incY (v : BitVec 15) : BitVec 15 :=
  if v &&& 0x7000#15 = 0x7000#15 then
    let v := v &&& ~~~0x7000#15
    let y := (v >>> 5) &&& 0x001F#15
    if y = 29#15 then (v &&& ~~~0x03E0#15) ^^^ 0x0800#15
    else if y = 31#15 then v &&& ~~~0x03E0#15
    else v + 0x0020#15
  else v + 0x1000#15

/-- Horizontal copy (rule R379): coarse X and nametable bit 10 from `t`. -/
def copyX (t v : BitVec 15) : BitVec 15 := copyBits 0x041F#15 t v

/-- Vertical copy (rule R380): coarse Y, nametable bit 11 and fine Y from `t`. -/
def copyY (t v : BitVec 15) : BitVec 15 := copyBits 0x7BE0#15 t v

/-! ### Background (rules R371 to R376) -/

/-- The nametable address of rules R371, R381 and R383: `$2000 | (v & $0FFF)`. -/
def ntAddr (v : BitVec 15) : BitVec 14 := 0x2000#14 ||| (v.setWidth 14 &&& 0x0FFF#14)

/-- The attribute address of rule R372. -/
def atAddr (v : BitVec 15) : BitVec 14 :=
  0x23C0#14 ||| (v.setWidth 14 &&& 0x0C00#14) ||| ((v >>> 4).setWidth 14 &&& 0x38#14)
    ||| ((v >>> 2).setWidth 14 &&& 0x07#14)

/-- The 2-bit attribute field of the tile's quadrant (rule R372). -/
def atField (v : BitVec 15) (b : Byte) : BitVec 2 :=
  (b >>> (((v >>> 4) &&& 4#15) ||| (v &&& 2#15)).toNat).setWidth 2

/-- The background pattern address of rules R373 and R374, without the `+ 8`. -/
def bgPatternAddr (p : Ppu) : BitVec 14 :=
  (if p.bgTable then 0x1000#14 else 0#14) + p.ntLatch.setWidth 14 * 16#14 + fineY p.v

/-- Nametable fetch (rules R371, R381). -/
def fetchNt (c : Cart) (filter : Nat) (s : Video) : Video :=
  let (b, s) := s.read c filter (ntAddr s.ppu.v)
  { s with ppu := { s.ppu with ntLatch := b } }

/-- Attribute fetch (rule R372). -/
def fetchAt (c : Cart) (filter : Nat) (s : Video) : Video :=
  let (b, s) := s.read c filter (atAddr s.ppu.v)
  { s with ppu := { s.ppu with atLatch := atField s.ppu.v b } }

/-- Pattern low fetch (rule R373). -/
def fetchPtLo (c : Cart) (filter : Nat) (s : Video) : Video :=
  let (b, s) := s.read c filter (bgPatternAddr s.ppu)
  { s with ppu := { s.ppu with ptLoLatch := b } }

/-- Pattern high fetch (rule R374). -/
def fetchPtHi (c : Cart) (filter : Nat) (s : Video) : Video :=
  let (b, s) := s.read c filter (bgPatternAddr s.ppu + 8#14)
  { s with ppu := { s.ppu with ptHiLatch := b } }

/-- Replace the low byte of a shifter. -/
def loadLow (sh : BitVec 16) (b : Byte) : BitVec 16 := (sh &&& 0xFF00#16) ||| b.setWidth 16

/-- Shifter reload (rule R375). -/
def reloadShifters (p : Ppu) : Ppu :=
  { p with
    bgLo := loadLow p.bgLo p.ptLoLatch
    bgHi := loadLow p.bgHi p.ptHiLatch
    atLo := loadLow p.atLo (if p.atLatch.getLsbD 0 then 0xFF#8 else 0x00#8)
    atHi := loadLow p.atHi (if p.atLatch.getLsbD 1 then 0xFF#8 else 0x00#8) }

/-- Shift (rule R376). -/
def shiftShifters (p : Ppu) : Ppu :=
  { p with bgLo := p.bgLo <<< 1, bgHi := p.bgHi <<< 1, atLo := p.atLo <<< 1, atHi := p.atHi <<< 1 }

/-! ### Sprites (rules R382, R383) -/

/-- Sprite height: 8 or 16. -/
def Ppu.spriteHeight (p : Ppu) : Nat := if p.spr16 then 16 else 8

/-- OAM byte `k` of sprite `n`. -/
def oamByte (p : Ppu) (n k : Nat) : Byte := p.oam.read (4 * n + k)

/-- One turn of the loop of rule R382, for OAM entry `n`. -/
def evalSprite (p : Ppu) (n : Nat) : Ppu :=
  let y := (oamByte p n 0).toNat
  if y ≤ p.scanline ∧ p.scanline - y < p.spriteHeight then
    if p.secCount < 8 then
      { p with
        sec := p.sec.setIfInBounds p.secCount ⟨oamByte p n 0, oamByte p n 1, oamByte p n 2, oamByte p n 3⟩
        secHas0 := if n = 0 then true else p.secHas0
        secCount := p.secCount + 1 }
    else { p with overflow := true }
  else p

/-- Sprite evaluation at dot 257 of a visible line (rule R382). -/
def evalSprites (p : Ppu) : Ppu :=
  let q := (List.range 64).foldl evalSprite { p with secCount := 0, secHas0 := false }
  { q with spriteCount := q.secCount, spr0OnLine := q.secHas0 }

/-- What dot 257 of the pre-render line does instead (rule R382). -/
def clearSprites (p : Ppu) : Ppu :=
  { p with secCount := 0, secHas0 := false, spriteCount := 0, spr0OnLine := false }

/-- The pattern row of a sprite entry on the current line, before flipping: `s - e.y`, in u16 arithmetic
(rules R11, R383; log entry 5). -/
def spriteRow (p : Ppu) (e : SecEntry) : BitVec 16 := BitVec.ofNat 16 p.scanline - e.y.setWidth 16

/-- The pattern address of a sprite entry (rule R383). -/
def spriteEntryAddr (p : Ppu) (e : SecEntry) : BitVec 14 :=
  let row := spriteRow p e
  if p.spr16 then
    let row := if e.attr.getLsbD 7 then 15#16 - row else row
    let tile := (e.tile &&& 0xFE#8).setWidth 16 + (if 8 ≤ row.toNat then 1#16 else 0#16)
    ((if e.tile.getLsbD 0 then 0x1000#16 else 0#16) + tile * 16#16 + (row &&& 7#16)).setWidth 14
  else
    let row := if e.attr.getLsbD 7 then 7#16 - row else row
    ((if p.sprTable then 0x1000#16 else 0#16) + e.tile.setWidth 16 * 16#16 + row).setWidth 14

/-- The entry that slot `i` shows, if the evaluation found one. -/
def Ppu.entry (p : Ppu) (i : Nat) : Option SecEntry := if i < p.secCount then p.sec[i]? else none

/-- The address slot `i` fetches from (rule R383). -/
def spriteAddr (p : Ppu) (i : Nat) : BitVec 14 :=
  match p.entry i with
  | some e => spriteEntryAddr p e
  | none => if p.spr16 || p.sprTable then 0x1FF0#14 else 0x0FF0#14

/-- What slot `i` holds once both its pattern bytes have been fetched (rule R383). -/
def loadedSlot (p : Ppu) (i : Nat) (lo hi : Byte) : SpriteSlot :=
  match p.entry i with
  | some e => ⟨lo, hi, e.attr, e.x⟩
  | none => ⟨0#8, 0#8, 0#8, 0#8⟩

/-- The sprite fetch of slot `i` at phase `ph`, the dot less `b = 257 + 8 i` (rule R383). -/
def fetchSprite (c : Cart) (filter : Nat) (i ph : Nat) (s : Video) : Video :=
  if ph = 0 ∨ ph = 2 then (s.read c filter (ntAddr s.ppu.v)).2
  else if ph = 4 then
    let (b, s) := s.read c filter (spriteAddr s.ppu i)
    { s with ppu := { s.ppu with sprLoLatch := b } }
  else if ph = 6 then
    let (b, s) := s.read c filter (spriteAddr s.ppu i + 8#14)
    { s with ppu := { s.ppu with slots := s.ppu.slots.setIfInBounds i (loadedSlot s.ppu i s.ppu.sprLoLatch b) } }
  else s

/-! ### Pixels (rules R384 to R387) -/

/-- A two-bit number from its bits. -/
def twoBits (hi lo : Bool) : Nat := 2 * hi.toNat + lo.toNat

/-- The background pixel and its palette (rule R384). -/
def bgPixel (p : Ppu) (px : Nat) : Nat × Nat :=
  let bit := 15 - p.x.toNat
  let v := twoBits (p.bgHi.getLsbD bit) (p.bgLo.getLsbD bit)
  let pal := twoBits (p.atHi.getLsbD bit) (p.atLo.getLsbD bit)
  (if !p.showBg || (decide (px < 8) && !p.bgLeft) then 0 else v, pal)

/-- An opaque sprite pixel (rule R385). -/
structure SpritePixel where
  px : Nat
  pal : Nat
  behind : Bool
  isZero : Bool
  deriving DecidableEq, Repr

/-- The pixel value of one slot at screen column `px`; 0 where it is transparent or not there. -/
def slotPixel (s : SpriteSlot) (px : Nat) : Nat :=
  if s.x.toNat ≤ px ∧ px - s.x.toNat < 8 then
    let off := px - s.x.toNat
    let b := if s.attr.getLsbD 6 then off else 7 - off
    twoBits (s.ptHi.getLsbD b) (s.ptLo.getLsbD b)
  else 0

/-- Scan the slots from number `i` on and take the first opaque one (rule R385). -/
def firstSprite (spr0 : Bool) (px : Nat) : Nat → List SpriteSlot → Option SpritePixel
  | _, [] => none
  | i, s :: rest =>
    if slotPixel s px = 0 then firstSprite spr0 px (i + 1) rest
    else some ⟨slotPixel s px, (s.attr &&& 3#8).toNat, s.attr.getLsbD 5, i == 0 && spr0⟩

/-- The sprite pixel at column `px`, or none where it is transparent, clipped or disabled (rule R385). -/
def spritePixel (p : Ppu) (px : Nat) : Option SpritePixel :=
  if !p.showSpr || (decide (px < 8) && !p.sprLeft) then none
  else firstSprite p.spr0OnLine px 0 (p.slots.toList.take p.spriteCount)

/-- The palette index of the pixel (rule R386). -/
def pixelIndex (bg : Nat × Nat) (sp : Option SpritePixel) : Nat :=
  match sp with
  | none => if bg.1 = 0 then 0 else bg.2 * 4 + bg.1
  | some q =>
    if bg.1 = 0 then 16 + q.pal * 4 + q.px
    else if q.behind then bg.2 * 4 + bg.1 else 16 + q.pal * 4 + q.px

/-- Sprite-zero hit at this pixel (rule R386). -/
def pixelHit (bg : Nat × Nat) (sp : Option SpritePixel) (px : Nat) : Bool :=
  match sp with
  | none => false
  | some q => bg.1 != 0 && q.isZero && px != 255

/-- Apply greyscale (rules R342, R386). -/
def greyed (p : Ppu) (c : Byte) : Byte := if p.grey then c &&& 0x30#8 else c

/-- Write framebuffer cell `[scanline][px]` (rule R387). -/
def putPixel (p : Ppu) (px : Nat) (c : Byte) : Ppu :=
  { p with framebuffer := p.framebuffer.write (256 * p.scanline + px) c }

/-- Pixel output at column `px` (rules R368, R384 to R386). -/
def outputPixel (p : Ppu) (px : Nat) : Ppu :=
  if p.rendering then
    let bg := bgPixel p px
    let sp := spritePixel p px
    putPixel { p with sprite0hit := p.sprite0hit || pixelHit bg sp px } px
      (greyed p (p.palette.read (palIndex (pixelIndex bg sp))))
  else putPixel p px (greyed p (p.palette.read 0))

/-! ### The tick (rules R364, R388) -/

/-- Advance the position (rule R364). -/
def advance (p : Ppu) : Ppu :=
  if p.dot + 1 = 341 then
    if p.scanline + 1 = 262 then
      { p with ticks := p.ticks + 1, dot := 0, scanline := 0, frame := p.frame + 1 }
    else { p with ticks := p.ticks + 1, dot := 0, scanline := p.scanline + 1 }
  else { p with ticks := p.ticks + 1, dot := p.dot + 1 }

/-- Vblank start and end (rules R366, R367). -/
def vblankEvents (s : Video) : Video :=
  if s.ppu.scanline = 241 ∧ s.ppu.dot = 1 then
    { s with ppu := { s.ppu with vblank := true, frameReady := true }, nmi := s.nmi || s.ppu.nmiEn }
  else if s.ppu.scanline = 261 ∧ s.ppu.dot = 1 then
    { s with ppu := { s.ppu with vblank := false, sprite0hit := false, overflow := false }, nmi := false }
  else s

/-- The dots of rule R370 at which tiles are fetched. -/
def tileDot (d : Nat) : Bool := (decide (1 ≤ d) && decide (d ≤ 256)) || (decide (321 ≤ d) && decide (d ≤ 336))

/-- The dots of rule R370 at which the shifters shift. -/
def shiftDot (d : Nat) : Bool := (decide (2 ≤ d) && decide (d ≤ 257)) || (decide (322 ≤ d) && decide (d ≤ 337))

/-- The dots of rule R370 at which the shifters are reloaded: 9, 17, ..., 257, 329 and 337. -/
def reloadDot (d : Nat) : Bool :=
  (decide (9 ≤ d) && decide (d ≤ 257) && d % 8 == 1) || d == 329 || d == 337

/-- The dots 257 to 320. -/
def spriteDot (d : Nat) : Bool := decide (257 ≤ d) && decide (d ≤ 320)

/-- Steps (2) and (3) of rule R388. -/
def shiftStage (p : Ppu) : Ppu :=
  let p := if shiftDot p.dot then shiftShifters p else p
  if reloadDot p.dot then reloadShifters p else p

/-- Step (4) of rule R388: the background or dummy fetch of the dot (rule R370). -/
def fetchStage (c : Cart) (filter : Nat) (s : Video) : Video :=
  let d := s.ppu.dot
  if tileDot d then
    if (d - 1) % 8 = 0 then fetchNt c filter s
    else if (d - 1) % 8 = 2 then fetchAt c filter s
    else if (d - 1) % 8 = 4 then fetchPtLo c filter s
    else if (d - 1) % 8 = 6 then fetchPtHi c filter s
    else s
  else if d = 337 ∨ d = 339 then fetchNt c filter s
  else s

/-- Step (5) of rule R388: sprite evaluation at dot 257 (rule R382). -/
def evalStage (p : Ppu) : Ppu :=
  if p.dot = 257 then if p.visibleLine then evalSprites p else clearSprites p else p

/-- Step (6) of rule R388: the sprite fetch of the dot (rule R383). -/
def spriteStage (c : Cart) (filter : Nat) (s : Video) : Video :=
  if spriteDot s.ppu.dot then fetchSprite c filter ((s.ppu.dot - 257) / 8) ((s.ppu.dot - 257) % 8) s else s

/-- Step (8) of rule R388: the updates of `v` that the dot requires, in the order listed there. -/
def scrollStage (p : Ppu) : Ppu :=
  let d := p.dot
  let v := if tileDot d && (d - 1) % 8 == 7 then incCoarseX p.v else p.v
  let v := if d = 256 then incY v else v
  let v := if d = 257 then copyX p.t v else v
  let v := if p.scanline = 261 ∧ 280 ≤ d ∧ d ≤ 304 then copyY p.t v else v
  { p with v := v }

/-- Step (9) of rule R388. -/
def oamaddrStage (p : Ppu) : Ppu := if spriteDot p.dot then { p with oamaddr := 0#8 } else p

/-- Steps (2) to (6) of rule R388, on a rendering line with rendering enabled. -/
def fetchSteps (c : Cart) (filter : Nat) (s : Video) : Video :=
  let s := { s with ppu := shiftStage s.ppu }
  let s := fetchStage c filter s
  let s := { s with ppu := evalStage s.ppu }
  spriteStage c filter s

/-- Step (7) of rule R388: visible lines, dots 1 to 256, rendering or not. -/
def pixelStage (p : Ppu) : Ppu :=
  if p.visibleLine && decide (1 ≤ p.dot) && decide (p.dot ≤ 256) then outputPixel p (p.dot - 1) else p

/-- `PpuTick()` (rules R364, R388). `rendering` is evaluated once: nothing in a tick changes PPUMASK. -/
def Video.tick (c : Cart) (filter : Nat) (s : Video) : Video :=
  let s := vblankEvents { s with ppu := advance s.ppu }
  let active := s.ppu.rendering && s.ppu.renderingLine
  let s := if active then fetchSteps c filter s else s
  let s := { s with ppu := pixelStage s.ppu }
  if active then { s with ppu := oamaddrStage (scrollStage s.ppu) } else s

/-! ### Ticks of the whole machine -/

/-- The part of the state that a tick can change. -/
def State.video (s : State) : Video := ⟨s.ppu, s.mapper, s.nmiPending⟩

/-- Put that part back. -/
def State.withVideo (s : State) (v : Video) : State :=
  { s with ppu := v.ppu, mapper := v.mapper, nmiPending := v.nmi }

/-- `PpuTick()` (rule R364). -/
def State.tick (s : State) : State := s.withVideo (s.video.tick s.cart s.params.a12FilterDots)

/-- `n` ticks in sequence. -/
def State.ticks : Nat → State → State
  | 0, s => s
  | n + 1, s => State.ticks n s.tick

/-- `Drain(cost)` (rule R484): three dots per CPU cycle. -/
def State.drain (cost : Nat) (s : State) : State := State.ticks (3 * cost) s

end Sys2Proof.Machine
end

