-- ==== Sys2Proof/Machine/Bus.lean ====
section
/-! DEFINITION. The bus (spec/20_memory.md): the address decode, the open-bus latch, the PPU register window
(spec/61_ppu.md section 2), the I/O window and OAM DMA (spec/63_io_and_scheduler.md sections 1 and 2). Reads and
writes are total (rule R60). -/

namespace Sys2Proof.Machine

/-! ### The PPU registers (rules R346 to R362) -/

/-- PPUSTATUS as read, with `bus.last` in bits 4:0 (rule R349). -/
def statusByte (p : Ppu) (openBus : Byte) : Byte :=
  (if p.vblank then 0x80#8 else 0#8) ||| (if p.sprite0hit then 0x40#8 else 0#8)
    ||| (if p.overflow then 0x20#8 else 0#8) ||| (openBus &&& 0x1F#8)

/-- The VRAM address as the PPU bus sees it: `v & $3FFF` (rule R343). -/
def vramAddr (v : BitVec 15) : BitVec 14 := v.setWidth 14

/-- The increment of `v` after an access to PPUDATA (rule R362). -/
def bumpV (p : Ppu) : Ppu := { p with v := p.v + (if p.inc32 then 32#15 else 1#15) }

/-- PPUSTATUS read (rule R349). -/
def readStatus (s : State) : Byte × State :=
  (statusByte s.ppu s.busLast, { s with ppu := { s.ppu with vblank := false, w := false }, nmiPending := false })

/-- `PpuRead(a)` made by the CPU (rule R350). -/
def State.ppuRead (a : BitVec 14) (s : State) : Byte × State :=
  let (b, v) := s.video.read s.cart s.params.a12FilterDots a
  (b, s.withVideo v)

/-- PPUDATA read (rule R361). -/
def readData (s : State) : Byte × State :=
  let a := vramAddr s.ppu.v
  if a.toNat < 0x3F00 then
    let (b, t) := s.ppuRead a
    (s.ppu.readbuf, { t with ppu := bumpV { t.ppu with readbuf := b } })
  else
    let (b, t) := s.ppuRead (a &&& 0x2FFF#14)
    (s.ppu.palette.read (palIndex a.toNat) ||| (s.busLast &&& 0xC0#8),
      { t with ppu := bumpV { t.ppu with readbuf := b } })

/-- `PpuRegRead(n)` (rule R346); the write-only registers return `bus.last` (rule R359). -/
def ppuRegRead (n : Nat) (s : State) : Byte × State :=
  match n with
  | 2 => readStatus s
  | 4 => (s.ppu.oam.read s.ppu.oamaddr.toNat, s)
  | 7 => readData s
  | _ => (s.busLast, s)

/-- `PpuWrite(a, v)` made by the CPU (rule R350): notify, then store. -/
def State.ppuWrite (a : BitVec 14) (v : Byte) (s : State) : State :=
  let s := s.withVideo (s.video.notify s.params.a12FilterDots a)
  if a.toNat < 0x2000 then { s with cart := mapperChrWrite s.cart s.mapper a.toNat v }
  else if a.toNat < 0x3F00 then
    { s with ppu := { s.ppu with vram := s.ppu.vram.write (ntIndex (mapperMirroring s.cart s.mapper) a) v } }
  else { s with ppu := { s.ppu with palette := s.ppu.palette.write (palIndex a.toNat) (v &&& 0x3F#8) } }

/-- PPUCTRL write (rule R347). -/
def writeCtrl (v : Byte) (p : Ppu) : Ppu :=
  { p with ctrl := v, t := copyBits 0x0C00#15 (v.setWidth 15 <<< 10) p.t }

/-- OAMDATA write (rule R355). -/
def writeOam (v : Byte) (p : Ppu) : Ppu :=
  { p with oam := p.oam.write p.oamaddr.toNat v, oamaddr := p.oamaddr + 1#8 }

/-- PPUSCROLL write (rule R356). -/
def writeScroll (v : Byte) (p : Ppu) : Ppu :=
  if p.w then
    { p with
      t := copyBits 0x03E0#15 ((v.setWidth 15 >>> 3) <<< 5) (copyBits 0x7000#15 (v.setWidth 15 <<< 12) p.t)
      w := false }
  else { p with t := copyBits 0x001F#15 (v.setWidth 15 >>> 3) p.t, x := v.setWidth 3, w := true }

/-- PPUADDR write (rule R357). -/
def writeAddr (v : Byte) (s : State) : State :=
  if s.ppu.w then
    let t := copyBits 0x00FF#15 (v.setWidth 15) s.ppu.t
    let s := { s with ppu := { s.ppu with t := t, v := t, w := false } }
    s.withVideo (s.video.notify s.params.a12FilterDots (vramAddr t))
  else
    { s with ppu := { s.ppu with t := copyBits 0x7F00#15 ((v &&& 0x3F#8).setWidth 15 <<< 8) s.ppu.t, w := true } }

/-- PPUDATA write (rule R358). -/
def writeData (v : Byte) (s : State) : State :=
  let s := s.ppuWrite (vramAddr s.ppu.v) v
  { s with ppu := bumpV s.ppu }

/-- `PpuRegWrite(n, v)` (rule R346). -/
def ppuRegWrite (n : Nat) (v : Byte) (s : State) : State :=
  match n with
  | 0 => { s with ppu := writeCtrl v s.ppu }
  | 1 => { s with ppu := { s.ppu with mask := v } }
  | 3 => { s with ppu := { s.ppu with oamaddr := v } }
  | 4 => { s with ppu := writeOam v s.ppu }
  | 5 => { s with ppu := writeScroll v s.ppu }
  | 6 => writeAddr v s
  | 7 => writeData v s
  | _ => s

/-! ### The controllers (rules R472 to R475) -/

/-- One controller after a write of `v` to $4016 (rule R473). -/
def Controller.write (v : Byte) (c : Controller) : Controller :=
  { c with
    shift := if c.strobe || v.getLsbD 0 then c.buttons else c.shift
    strobe := v.getLsbD 0 }

/-- The serial bit a read returns (rule R474). -/
def Controller.bit (c : Controller) : Byte := (if c.strobe then c.buttons else c.shift) &&& 1#8

/-- A controller after a read (rule R474): ones shift in. -/
def Controller.clocked (c : Controller) : Controller :=
  if c.strobe then c else { c with shift := (c.shift >>> 1) ||| 0x80#8 }

/-- The byte a controller read returns (rule R474). -/
def controllerByte (openBus : Byte) (c : Controller) : Byte := (openBus &&& 0xE0#8) ||| c.bit

/-! ### The I/O window $4000 to $4017: reads (rule R470) -/

/-- `IoRead(a)`. -/
def ioRead (a : Addr) (s : State) : Byte × State :=
  if a = 0x4016#16 then (controllerByte s.busLast s.ctl0, { s with ctl0 := s.ctl0.clocked })
  else if a = 0x4017#16 then (controllerByte s.busLast s.ctl1, { s with ctl1 := s.ctl1.clocked })
  else (s.busLast, s)

/-! ### `BusRead` (rules R61, R62) -/

/-- The index in RAM of an address in $0000 to $1FFF (rule R65). -/
def ramIndex (a : Addr) : Nat := a.toNat % 2048

/-- The read of rule R62 before `bus.last` is updated. -/
def busReadRaw (a : Addr) (s : State) : Byte × State :=
  if a.toNat < 0x2000 then (s.ram.read (ramIndex a), s)
  else if a.toNat < 0x4000 then ppuRegRead (a.toNat % 8) s
  else if a.toNat < 0x4018 then ioRead a s
  else if a.toNat < 0x4020 then (s.busLast, s)
  else (mapperCpuRead s.cart s.mapper s.busLast a, s)

/-- `BusRead(a)` (rule R62): the byte, and the machine after the read. -/
def busRead (a : Addr) (s : State) : Byte × State :=
  ((busReadRaw a s).1, { (busReadRaw a s).2 with busLast := (busReadRaw a s).1 })

/-! ### OAM DMA (rules R478, R479) -/

/-- One turn of the loop of rule R478: byte `i` of page `page`. -/
def dmaByte (page : Byte) (s : State) (i : Nat) : State :=
  let (b, t) := busRead ((page ++ 0#8) + BitVec.ofNat 16 i) s
  { t with ppu := { t.ppu with oam := t.ppu.oam.write ((t.ppu.oamaddr.toNat + i) % 256) b } }

/-- The whole copy, in ascending address order (rule R478). -/
def dmaCopy (page : Byte) (s : State) : State := (List.range 256).foldl (dmaByte page) s

/-- The cost a DMA adds to the instruction that starts it; `c0` is `cyc` at the start of it (rule R479). -/
def dmaCost (c0 : Nat) : Nat := 513 + c0 % 2

/-- The effect of a write of `page` to $4014. `cyc` is still `c0` here: an instruction adds its own cost after its
bus accesses, and writes $4014 at most once (rule R479; log entry 7). -/
def oamDma (page : Byte) (s : State) : State :=
  let t := dmaCopy page s
  { t with cyc := t.cyc + dmaCost s.cyc }

/-! ### `BusWrite` (rules R61, R63) -/

/-- `IoWrite(a, v)` (rule R470): everything but the two registers is absorbed (rules R471, R477). -/
def ioWrite (a : Addr) (v : Byte) (s : State) : State :=
  if a = 0x4014#16 then oamDma v s
  else if a = 0x4016#16 then { s with ctl0 := s.ctl0.write v, ctl1 := s.ctl1.write v }
  else s

/-- `BusWrite(a, v)` (rule R63). -/
def busWrite (a : Addr) (v : Byte) (s : State) : State :=
  let s := { s with busLast := v }
  if a.toNat < 0x2000 then { s with ram := s.ram.write (ramIndex a) v }
  else if a.toNat < 0x4000 then ppuRegWrite (a.toNat % 8) v s
  else if a.toNat < 0x4018 then ioWrite a v s
  else if a.toNat < 0x4020 then s
  else { s with cart := cartCpuWrite s.cart s.mapper a v, mapper := mapperCpuWrite s.mapper a v }

/-- `{BusRead(b), BusRead(a)}` with the byte at `a` read first: a 16-bit value whose low byte is at `a` and whose
high byte is at `b` (rules R13, R70). -/
def busRead16 (a b : Addr) (s : State) : Addr × State :=
  let (lo, s) := busRead a s
  let (hi, s) := busRead b s
  (wordOf hi lo, s)

/-- The byte a CPU read of `a` would return, without its side effects (rule R490). -/
def busPeek (s : State) (a : Addr) : Byte := (busRead a s).1

end Sys2Proof.Machine
end

