-- ==== Sys2Proof/Machine/Flags.lean ====
section
/-! DEFINITION. Status flags and the ALU: every operation that computes a register or a flag from registers and an
operand byte (spec/10_state.md section 2, 43_logic_arith.md, 44_inc_dec_shift.md, 46_flags_nop.md and the
combinations of 47_unofficial.md). They act on the CPU registers alone. -/

namespace Sys2Proof.Machine

/-! ### Flags (rule R23) -/

/-- The bit position of a flag. -/
def Flag.bit : Flag → Nat
  | .C => 0 | .Z => 1 | .I => 2 | .D => 3 | .B => 4 | .U => 5 | .V => 6 | .N => 7

/-- Read a flag of a status byte. -/
def getFlag (p : Byte) (f : Flag) : Bool := p.getLsbD f.bit

/-- Write a flag of a status byte. -/
def putFlag (f : Flag) (b : Bool) (p : Byte) : Byte :=
  if b then p ||| (1#8 <<< f.bit) else p &&& ~~~(1#8 <<< f.bit)

/-- Read a flag of the status register. -/
def Cpu.get (c : Cpu) (f : Flag) : Bool := getFlag c.p f

/-- Write a flag of the status register. -/
def Cpu.put (f : Flag) (b : Bool) (c : Cpu) : Cpu := { c with p := putFlag f b c.p }

/-- `SetNZ(v)` (rule R15). -/
def setNZ (v : Byte) (c : Cpu) : Cpu := (c.put .Z (decide (v = 0#8))).put .N (v.getLsbD 7)

/-- The byte pushed by PHP and BRK: `P | $30` (rule R28). -/
def pushedByBrk (p : Byte) : Byte := p ||| 0x30#8

/-- The byte pushed by NMI and IRQ entry: `(P & $EF) | $20` (rule R28). -/
def pushedByInterrupt (p : Byte) : Byte := (p &&& 0xEF#8) ||| 0x20#8

/-- P as loaded by PLP and RTI: `(v & $EF) | $20` (rules R173, R236). -/
def pulledStatus (v : Byte) : Byte := (v &&& 0xEF#8) ||| 0x20#8

/-! ### The adder and the comparator (rules R190, R191) -/

/-- The 9-bit sum of rule R190. -/
def adderSum (a m : Byte) (c : Bool) : BitVec 9 := a.setWidth 9 + m.setWidth 9 + (BitVec.ofBool c).setWidth 9

/-- `Add(m)` (rule R190). D is not read. -/
def add (m : Byte) (c : Cpu) : Cpu :=
  let sum := adderSum c.a m (c.get .C)
  let r := sum.setWidth 8
  setNZ r { (c.put .C (sum.getLsbD 8)).put .V (decide ((c.a ^^^ r) &&& (m ^^^ r) &&& 0x80#8 ≠ 0#8)) with a := r }

/-- `Compare(r, m)` (rule R191). -/
def compare (r m : Byte) (c : Cpu) : Cpu :=
  ((c.put .C (decide (m.toNat ≤ r.toNat))).put .Z (decide (r = m))).put .N ((r - m).getLsbD 7)

/-! ### Loads and transfers (rules R150 to R152, R156 to R161, R255) -/

/-- `A <- m; SetNZ(A)`. -/
def loadA (m : Byte) (c : Cpu) : Cpu := setNZ m { c with a := m }
/-- `X <- m; SetNZ(X)`. -/
def loadX (m : Byte) (c : Cpu) : Cpu := setNZ m { c with x := m }
/-- `Y <- m; SetNZ(Y)`. -/
def loadY (m : Byte) (c : Cpu) : Cpu := setNZ m { c with y := m }
/-- `A <- m; X <- m; SetNZ(m)` (rule R255). -/
def loadAX (m : Byte) (c : Cpu) : Cpu := setNZ m { c with a := m, x := m }

/-! ### Logic (rules R180 to R183) -/

/-- AND. -/
def andA (m : Byte) (c : Cpu) : Cpu := loadA (c.a &&& m) c
/-- ORA. -/
def oraA (m : Byte) (c : Cpu) : Cpu := loadA (c.a ||| m) c
/-- EOR. -/
def eorA (m : Byte) (c : Cpu) : Cpu := loadA (c.a ^^^ m) c
/-- BIT (rule R183). -/
def bitA (m : Byte) (c : Cpu) : Cpu :=
  ((c.put .Z (decide (c.a &&& m = 0#8))).put .N (m.getLsbD 7)).put .V (m.getLsbD 6)

/-! ### Arithmetic and comparison (rules R184 to R188) -/

/-- ADC. -/
def adc (m : Byte) (c : Cpu) : Cpu := add m c
/-- SBC: `Add(m ^ $FF)`. -/
def sbc (m : Byte) (c : Cpu) : Cpu := add (m ^^^ 0xFF#8) c
/-- CMP. -/
def cmpA (m : Byte) (c : Cpu) : Cpu := compare c.a m c
/-- CPX. -/
def cmpX (m : Byte) (c : Cpu) : Cpu := compare c.x m c
/-- CPY. -/
def cmpY (m : Byte) (c : Cpu) : Cpu := compare c.y m c

/-! ### One-operand operations: the result byte, and the CPU with the carry they set (rules R200 to R209).
`SetNZ` of the result is left to the instruction: the combinations of 47_unofficial.md set N and Z otherwise. -/

/-- INC. -/
def incByte (m : Byte) (c : Cpu) : Byte × Cpu := (m + 1#8, c)
/-- DEC. -/
def decByte (m : Byte) (c : Cpu) : Byte × Cpu := (m - 1#8, c)
/-- ASL. -/
def aslByte (m : Byte) (c : Cpu) : Byte × Cpu := (m <<< 1, c.put .C (m.getLsbD 7))
/-- LSR. -/
def lsrByte (m : Byte) (c : Cpu) : Byte × Cpu := (m >>> 1, c.put .C (m.getLsbD 0))
/-- ROL. -/
def rolByte (m : Byte) (c : Cpu) : Byte × Cpu :=
  ((m <<< 1) ||| (if c.get .C then 0x01#8 else 0#8), c.put .C (m.getLsbD 7))
/-- ROR. -/
def rorByte (m : Byte) (c : Cpu) : Byte × Cpu :=
  ((m >>> 1) ||| (if c.get .C then 0x80#8 else 0#8), c.put .C (m.getLsbD 0))

/-! ### Immediate combinations (rules R264 to R267) -/

/-- ANC. -/
def anc (m : Byte) (c : Cpu) : Cpu := (andA m c).put .C ((c.a &&& m).getLsbD 7)
/-- ALR. -/
def alr (m : Byte) (c : Cpu) : Cpu :=
  loadA ((c.a &&& m) >>> 1) (c.put .C ((c.a &&& m).getLsbD 0))
/-- The result byte of ARR. -/
def arrByte (m : Byte) (c : Cpu) : Byte := ((c.a &&& m) >>> 1) ||| (if c.get .C then 0x80#8 else 0#8)
/-- ARR. -/
def arr (m : Byte) (c : Cpu) : Cpu :=
  let r := arrByte m c
  ((loadA r c).put .C (r.getLsbD 6)).put .V (r.getLsbD 6 ^^ r.getLsbD 5)
/-- AXS. -/
def axs (m : Byte) (c : Cpu) : Cpu :=
  loadX ((c.a &&& c.x) - m) (c.put .C (decide (m.toNat ≤ (c.a &&& c.x).toNat)))

end Sys2Proof.Machine
end

