-- ==== Sys2Proof/Machine/Ops.lean ====
section
/-! DEFINITION. The named operations of spec/00_scope.md section 6: cycle costs, fetch, the stack; and taking an
exception, returning from one, and reset (spec/45_control.md rules R235, R236, 60_exceptions.md rule R306,
70_reset_and_hazards.md rule R501). -/

namespace Sys2Proof.Machine

/-- Apply an operation on the CPU registers. -/
def State.mapCpu (f : Cpu → Cpu) (s : State) : State := { s with cpu := f s.cpu }

/-- Add a cost to the total-cycle counter (rules R15, R483). -/
def State.charge (n : Nat) (s : State) : State := { s with cyc := s.cyc + n }

/-! ### Fetch (rule R16) -/

/-- `Fetch8()`. -/
def fetch8 (s : State) : Byte × State :=
  let (b, s) := busRead s.cpu.pc s
  (b, s.mapCpu fun c => { c with pc := c.pc + 1#16 })

/-- Fetch one instruction: the opcode byte and then, as its format says, its operand bytes in ascending address
order (rules R16, R83, R100). PC is left at the following instruction. -/
def fetchInstr (s : State) : Instr × State :=
  let (op, s) := fetch8 s
  match (decodeRow op).mode.bytes with
  | 1 => (decodeOp op 0#8 0#8, s)
  | 2 =>
    let (b, s) := fetch8 s
    (decodeOp op b 0#8, s)
  | _ =>
    let (b, s) := fetch8 s
    let (c, s) := fetch8 s
    (decodeOp op b c, s)

/-! ### The stack (rules R14, R21) -/

/-- `$0100 | SP`. -/
def stackAddr (sp : Byte) : Addr := 0x01#8 ++ sp

/-- `Push(v)`. -/
def push (v : Byte) (s : State) : State :=
  (busWrite (stackAddr s.cpu.sp) v s).mapCpu fun c => { c with sp := c.sp - 1#8 }

/-- `Pull()`. -/
def pull (s : State) : Byte × State :=
  let s := s.mapCpu fun c => { c with sp := c.sp + 1#8 }
  busRead (stackAddr s.cpu.sp) s

/-- `Push16(w)`: high byte first. -/
def push16 (w : Addr) (s : State) : State := push (loByte w) (push (hiByte w) s)

/-- `Pull16()`: low byte first. -/
def pull16 (s : State) : Addr × State :=
  let (lo, s) := pull s
  let (hi, s) := pull s
  (wordOf hi lo, s)

/-! ### Vectors (rule R75) -/

/-- NMI. -/
def nmiVector : Addr := 0xFFFA#16
/-- Reset. -/
def resetVector : Addr := 0xFFFC#16
/-- IRQ and BRK. -/
def irqVector : Addr := 0xFFFE#16

/-- `PC <- MemRead16(vector)` (rule R13). -/
def loadPc (vector : Addr) (s : State) : State :=
  let (t, s) := busRead16 vector (vector + 1#16) s
  s.mapCpu fun c => { c with pc := t }

/-! ### Exceptions -/

/-- Taking an exception (rules R235, R306): push the return address (high byte first) and the given status byte,
set I, load PC from the vector. D is not cleared and nothing else is saved. -/
def takeException (ret : Addr) (status : Byte) (vector : Addr) (s : State) : State :=
  let s := push status (push16 ret s)
  loadPc vector (s.mapCpu (Cpu.put .I true))

/-- `InterruptEntry(vector)` of rule R306 (NMI and IRQ): the pushed PC is the address of the instruction not yet
executed, the pushed status has B clear and U set, and the cost is 7. -/
def interruptEntry (vector : Addr) (s : State) : State :=
  (takeException s.cpu.pc (pushedByInterrupt s.cpu.p) vector s).charge 7

/-- The trap of BRK (rules R235, R308): the return address is the address of the opcode plus 2, that is PC + 1
after the opcode fetch, and the pushed status has B and U set. -/
def softwareInterrupt (s : State) : State :=
  takeException (s.cpu.pc + 1#16) (pushedByBrk s.cpu.p) irqVector s

/-- The return of RTI (rules R236, R309): status first, with B forced to 0 and U to 1, then PC low and high. -/
def returnFromException (s : State) : State :=
  let (v, s) := pull s
  let s := s.mapCpu fun c => { c with p := pulledStatus v }
  let (ret, s) := pull16 s
  s.mapCpu fun c => { c with pc := ret }

/-! ### Reset -/

/-- What reset clears in the PPU (rule R501). -/
def Ppu.afterReset (p : Ppu) : Ppu :=
  { p with ctrl := 0#8, mask := 0#8, w := false, x := 0#3, t := 0#15, readbuf := 0#8 }

/-- `Reset()` (rule R501), its cost of 7 included. -/
def resetSequence (s : State) : State :=
  let s := s.mapCpu fun c => Cpu.put .I true { c with sp := c.sp - 3#8 }
  let s := loadPc resetVector s
  { s with nmiPending := false, ppu := s.ppu.afterReset }.charge 7

end Sys2Proof.Machine
end

