-- ==== Sys2Proof/Machine/Operands.lean ====
section
/-! DEFINITION. Effective addresses (spec/40_addressing_modes.md) and the shapes an instruction takes by its operand
class (rule R130). The operand bytes have been fetched when a meaning starts (`fetchInstr`), so PC is the address
of the following instruction. Each shape charges the baseline cost it is given, with the page-cross adder where
the table cell is marked `+` (rule R144). -/

namespace Sys2Proof.Machine

/-- `page(a)` of rule R10. -/
def page (a : Addr) : Byte := hiByte a

/-- `PageCross(a, b)` of rule R15. -/
def pageCross (a b : Addr) : Bool := page a != page b

/-- `zext_16` of a zero-page address. -/
def zpAddr (z : Byte) : Addr := z.setWidth 16

/-- `sext_16` (rule R11). -/
def sext16 (d : Byte) : Addr := d.signExtend 16

/-- An effective address, and whether the indexing crossed a page. -/
structure Ea where
  addr : Addr
  crossed : Bool
  deriving DecidableEq, Repr

/-- The effective address of `base` indexed by `i` (rules R138, R139, R141). -/
def indexed (base : Addr) (i : Byte) : Ea :=
  let ea := base + i.setWidth 16
  ⟨ea, pageCross ea base⟩

/-- `Resolve(mode)` (rules R134 to R141), the operand bytes being in hand. The indirect forms read their pointer,
low byte first, from page 0. -/
def resolve (m : MemOperand) (s : State) : Ea × State :=
  match m with
  | .zeropage z => (⟨zpAddr z, false⟩, s)
  | .zeropageX z => (⟨zpAddr (z + s.cpu.x), false⟩, s)
  | .zeropageY z => (⟨zpAddr (z + s.cpu.y), false⟩, s)
  | .absolute a => (⟨a, false⟩, s)
  | .absoluteX a => (indexed a s.cpu.x, s)
  | .absoluteY a => (indexed a s.cpu.y, s)
  | .indirectX z =>
    let p := z + s.cpu.x
    let (base, s) := busRead16 (zpAddr p) (zpAddr (p + 1#8)) s
    (⟨base, false⟩, s)
  | .indirectY z =>
    let (base, s) := busRead16 (zpAddr z) (zpAddr (z + 1#8)) s
    (indexed base s.cpu.y, s)

/-! ### Shapes (rule R130) -/

/-- A one-byte instruction that only computes on the registers. -/
def implied (base : Nat) (f : Cpu → Cpu) (s : State) : Result := .next ((s.mapCpu f).charge base)

/-- An immediate instruction (rule R133). -/
def immediate (base : Nat) (v : Byte) (f : Byte → Cpu → Cpu) (s : State) : Result :=
  .next ((s.mapCpu (f v)).charge base)

/-- The read class: one `BusRead(ea)`; `adder` is the `+` of the table cell. -/
def readMem (base : Nat) (adder : Bool) (m : MemOperand) (f : Byte → Cpu → Cpu) (s : State) : Result :=
  let (ea, s) := resolve m s
  let (v, s) := busRead ea.addr s
  .next ((s.mapCpu (f v)).charge (base + (adder && ea.crossed).toNat))

/-- The write class: one `BusWrite(ea, v)`, no read, no adder. -/
def writeMem (base : Nat) (m : MemOperand) (v : Cpu → Byte) (s : State) : Result :=
  let (ea, s) := resolve m s
  .next ((busWrite ea.addr (v s.cpu) s).charge base)

/-- The read-modify-write class: one `BusRead(ea)`, then one `BusWrite(ea, r)`, no adder. `op` gives the byte written
and the carry; `post` is what is done with that byte afterwards. -/
def modifyMem (base : Nat) (m : MemOperand) (op : Byte → Cpu → Byte × Cpu) (post : Byte → Cpu → Cpu) (s : State) :
    Result :=
  let (ea, s) := resolve m s
  let (v, s) := busRead ea.addr s
  let (r, c) := op v s.cpu
  let s := busWrite ea.addr r s
  .next (({ s with cpu := post r c }).charge base)

/-- The accumulator form of a shift or rotate (rule R132). -/
def modifyAcc (base : Nat) (op : Byte → Cpu → Byte × Cpu) (s : State) : Result :=
  .next ((s.mapCpu fun c => loadA (op c.a c).1 (op c.a c).2).charge base)

/-- The cost of a taken branch (rule R224). -/
def takenCost (target next : Addr) : Nat := 3 + (pageCross target next).toNat

/-- The common rule of the eight branches (rule R224); PC is `next`. -/
def branch (cond : Cpu → Bool) (d : Byte) (s : State) : Result :=
  if cond s.cpu then
    let target := s.cpu.pc + sext16 d
    .next ((s.mapCpu fun c => { c with pc := target }).charge (takenCost target s.cpu.pc))
  else .next (s.charge 2)

/-- The 20 opcodes of classes (b) and (c) (rules R107, R270, R278): under `cfg.unstable_policy = nop` only the
baseline cost is charged; under `refuse` they have no meaning. -/
def unstable (kind : Mnemonic) (base : Nat) (s : State) : Result :=
  match s.params.unstablePolicy with
  | .nop => .next (s.charge base)
  | .refuse => .refused (.unstableOpcode kind)

end Sys2Proof.Machine
end

