-- ==== Sys2Proof/Machine/Control.lean ====
section
/-! DEFINITION. The meanings of jumps, subroutines, branches, BRK and RTI (spec/45_control.md).
One definition per opcode; the baseline cost is that of its row in the opcode table (rules R105, R106). -/

namespace Sys2Proof.Machine

/-! ### JMP -/

/-- $4C JMP abs (rule R220). -/
def execJmpAbs (a : Addr) (s : State) : Result := .next ((s.mapCpu fun c => { c with pc := a }).charge 3)

/-- $6C JMP (abs) (rule R221). The pointer's high byte comes from the same page as its low byte (rule R143). -/
def execJmpInd (a : Addr) (s : State) : Result :=
  let (target, s) := busRead16 a (wordOf (hiByte a) (loByte a + 1#8)) s
  .next ((s.mapCpu fun c => { c with pc := target }).charge 5)

/-! ### JSR -/

/-- $20 JSR abs (rule R222). PC - 1 is the address of the third byte; both operand bytes are fetched before the pushes. -/
def execJsrAbs (a : Addr) (s : State) : Result :=
  .next (((push16 (s.cpu.pc - 1#16) s).mapCpu fun c => { c with pc := a }).charge 6)

/-! ### RTS -/

/-- $60 RTS (rule R223). -/
def execRts (s : State) : Result :=
  let (ret, s) := pull16 s
  .next ((s.mapCpu fun c => { c with pc := ret + 1#16 }).charge 6)

/-! ### BCC -/

/-- $90 BCC (rule R225). -/
def execBcc (d : Byte) (s : State) : Result := branch (fun c => !c.get .C) d s

/-! ### BCS -/

/-- $B0 BCS (rule R226). -/
def execBcs (d : Byte) (s : State) : Result := branch (fun c => c.get .C) d s

/-! ### BEQ -/

/-- $F0 BEQ (rule R227). -/
def execBeq (d : Byte) (s : State) : Result := branch (fun c => c.get .Z) d s

/-! ### BNE -/

/-- $D0 BNE (rule R228). -/
def execBne (d : Byte) (s : State) : Result := branch (fun c => !c.get .Z) d s

/-! ### BMI -/

/-- $30 BMI (rule R229). -/
def execBmi (d : Byte) (s : State) : Result := branch (fun c => c.get .N) d s

/-! ### BPL -/

/-- $10 BPL (rule R230). -/
def execBpl (d : Byte) (s : State) : Result := branch (fun c => !c.get .N) d s

/-! ### BVC -/

/-- $50 BVC (rule R231). -/
def execBvc (d : Byte) (s : State) : Result := branch (fun c => !c.get .V) d s

/-! ### BVS -/

/-- $70 BVS (rule R232). -/
def execBvs (d : Byte) (s : State) : Result := branch (fun c => c.get .V) d s

/-! ### BRK -/

/-- $00 BRK (rule R235). The trap of rule R308. -/
def execBrk (s : State) : Result := .next ((softwareInterrupt s).charge 7)

/-! ### RTI -/

/-- $40 RTI (rule R236). -/
def execRti (s : State) : Result := .next ((returnFromException s).charge 6)

end Sys2Proof.Machine
end

