-- ==== Sys2Proof/Machine/FlagOps.lean ====
section
/-! DEFINITION. The meanings of the flag instructions and NOP (spec/46_flags_nop.md rules R240 to R247).
One definition per opcode; the baseline cost is that of its row in the opcode table (rules R105, R106). -/

namespace Sys2Proof.Machine

/-! ### CLC -/

/-- $18 CLC (rule R240). -/
def execClc (s : State) : Result := implied 2 (Cpu.put .C false) s

/-! ### SEC -/

/-- $38 SEC (rule R241). -/
def execSec (s : State) : Result := implied 2 (Cpu.put .C true) s

/-! ### CLI -/

/-- $58 CLI (rule R242). -/
def execCli (s : State) : Result := implied 2 (Cpu.put .I false) s

/-! ### SEI -/

/-- $78 SEI (rule R243). -/
def execSei (s : State) : Result := implied 2 (Cpu.put .I true) s

/-! ### CLV -/

/-- $B8 CLV (rule R244). -/
def execClv (s : State) : Result := implied 2 (Cpu.put .V false) s

/-! ### CLD -/

/-- $D8 CLD (rule R245). -/
def execCld (s : State) : Result := implied 2 (Cpu.put .D false) s

/-! ### SED -/

/-- $F8 SED (rule R246). -/
def execSed (s : State) : Result := implied 2 (Cpu.put .D true) s

/-! ### NOP -/

/-- $EA NOP (rule R247). -/
def execNop (s : State) : Result := implied 2 id s

end Sys2Proof.Machine
end

