-- ==== Sys2Proof/Machine/LoadStore.lean ====
section
/-! DEFINITION. The meanings of loads, stores and register transfers (spec/41_load_store_transfer.md rules R150 to R161).
One definition per opcode; the baseline cost is that of its row in the opcode table (rules R105, R106). -/

namespace Sys2Proof.Machine

/-! ### LDA -/

/-- $A1 LDA (zp,X) (rule R150). -/
def execLdaIndX (z : Byte) (s : State) : Result := readMem 6 false (.indirectX z) loadA s

/-- $A5 LDA zp (rule R150). -/
def execLdaZp (z : Byte) (s : State) : Result := readMem 3 false (.zeropage z) loadA s

/-- $A9 LDA # (rule R150). -/
def execLdaImm (v : Byte) (s : State) : Result := immediate 2 v loadA s

/-- $AD LDA abs (rule R150). -/
def execLdaAbs (a : Addr) (s : State) : Result := readMem 4 false (.absolute a) loadA s

/-- $B1 LDA (zp),Y (rule R150). -/
def execLdaIndY (z : Byte) (s : State) : Result := readMem 5 true (.indirectY z) loadA s

/-- $B5 LDA zp,X (rule R150). -/
def execLdaZpX (z : Byte) (s : State) : Result := readMem 4 false (.zeropageX z) loadA s

/-- $B9 LDA abs,Y (rule R150). -/
def execLdaAbsY (a : Addr) (s : State) : Result := readMem 4 true (.absoluteY a) loadA s

/-- $BD LDA abs,X (rule R150). -/
def execLdaAbsX (a : Addr) (s : State) : Result := readMem 4 true (.absoluteX a) loadA s

/-! ### LDX -/

/-- $A2 LDX # (rule R151). -/
def execLdxImm (v : Byte) (s : State) : Result := immediate 2 v loadX s

/-- $A6 LDX zp (rule R151). -/
def execLdxZp (z : Byte) (s : State) : Result := readMem 3 false (.zeropage z) loadX s

/-- $AE LDX abs (rule R151). -/
def execLdxAbs (a : Addr) (s : State) : Result := readMem 4 false (.absolute a) loadX s

/-- $B6 LDX zp,Y (rule R151). -/
def execLdxZpY (z : Byte) (s : State) : Result := readMem 4 false (.zeropageY z) loadX s

/-- $BE LDX abs,Y (rule R151). -/
def execLdxAbsY (a : Addr) (s : State) : Result := readMem 4 true (.absoluteY a) loadX s

/-! ### LDY -/

/-- $A0 LDY # (rule R152). -/
def execLdyImm (v : Byte) (s : State) : Result := immediate 2 v loadY s

/-- $A4 LDY zp (rule R152). -/
def execLdyZp (z : Byte) (s : State) : Result := readMem 3 false (.zeropage z) loadY s

/-- $AC LDY abs (rule R152). -/
def execLdyAbs (a : Addr) (s : State) : Result := readMem 4 false (.absolute a) loadY s

/-- $B4 LDY zp,X (rule R152). -/
def execLdyZpX (z : Byte) (s : State) : Result := readMem 4 false (.zeropageX z) loadY s

/-- $BC LDY abs,X (rule R152). -/
def execLdyAbsX (a : Addr) (s : State) : Result := readMem 4 true (.absoluteX a) loadY s

/-! ### STA -/

/-- $81 STA (zp,X) (rule R153). -/
def execStaIndX (z : Byte) (s : State) : Result := writeMem 6 (.indirectX z) (fun c => c.a) s

/-- $85 STA zp (rule R153). -/
def execStaZp (z : Byte) (s : State) : Result := writeMem 3 (.zeropage z) (fun c => c.a) s

/-- $8D STA abs (rule R153). -/
def execStaAbs (a : Addr) (s : State) : Result := writeMem 4 (.absolute a) (fun c => c.a) s

/-- $91 STA (zp),Y (rule R153). -/
def execStaIndY (z : Byte) (s : State) : Result := writeMem 6 (.indirectY z) (fun c => c.a) s

/-- $95 STA zp,X (rule R153). -/
def execStaZpX (z : Byte) (s : State) : Result := writeMem 4 (.zeropageX z) (fun c => c.a) s

/-- $99 STA abs,Y (rule R153). -/
def execStaAbsY (a : Addr) (s : State) : Result := writeMem 5 (.absoluteY a) (fun c => c.a) s

/-- $9D STA abs,X (rule R153). -/
def execStaAbsX (a : Addr) (s : State) : Result := writeMem 5 (.absoluteX a) (fun c => c.a) s

/-! ### STX -/

/-- $86 STX zp (rule R154). -/
def execStxZp (z : Byte) (s : State) : Result := writeMem 3 (.zeropage z) (fun c => c.x) s

/-- $8E STX abs (rule R154). -/
def execStxAbs (a : Addr) (s : State) : Result := writeMem 4 (.absolute a) (fun c => c.x) s

/-- $96 STX zp,Y (rule R154). -/
def execStxZpY (z : Byte) (s : State) : Result := writeMem 4 (.zeropageY z) (fun c => c.x) s

/-! ### STY -/

/-- $84 STY zp (rule R155). -/
def execStyZp (z : Byte) (s : State) : Result := writeMem 3 (.zeropage z) (fun c => c.y) s

/-- $8C STY abs (rule R155). -/
def execStyAbs (a : Addr) (s : State) : Result := writeMem 4 (.absolute a) (fun c => c.y) s

/-- $94 STY zp,X (rule R155). -/
def execStyZpX (z : Byte) (s : State) : Result := writeMem 4 (.zeropageX z) (fun c => c.y) s

/-! ### TAX -/

/-- $AA TAX (rule R156). -/
def execTax (s : State) : Result := implied 2 (fun c => loadX c.a c) s

/-! ### TAY -/

/-- $A8 TAY (rule R157). -/
def execTay (s : State) : Result := implied 2 (fun c => loadY c.a c) s

/-! ### TXA -/

/-- $8A TXA (rule R158). -/
def execTxa (s : State) : Result := implied 2 (fun c => loadA c.x c) s

/-! ### TYA -/

/-- $98 TYA (rule R159). -/
def execTya (s : State) : Result := implied 2 (fun c => loadA c.y c) s

/-! ### TSX -/

/-- $BA TSX (rule R160). -/
def execTsx (s : State) : Result := implied 2 (fun c => loadX c.sp c) s

/-! ### TXS -/

/-- $9A TXS (rule R161). -/
def execTxs (s : State) : Result := implied 2 (fun c => { c with sp := c.x }) s

end Sys2Proof.Machine
end

