-- ==== Sys2Proof/Machine/Logic.lean ====
section
/-! DEFINITION. The meanings of logic, arithmetic and comparison (spec/43_logic_arith.md rules R180 to R188).
One definition per opcode; the baseline cost is that of its row in the opcode table (rules R105, R106). -/

namespace Sys2Proof.Machine

/-! ### AND -/

/-- $21 AND (zp,X) (rule R180). -/
def execAndIndX (z : Byte) (s : State) : Result := readMem 6 false (.indirectX z) andA s

/-- $25 AND zp (rule R180). -/
def execAndZp (z : Byte) (s : State) : Result := readMem 3 false (.zeropage z) andA s

/-- $29 AND # (rule R180). -/
def execAndImm (v : Byte) (s : State) : Result := immediate 2 v andA s

/-- $2D AND abs (rule R180). -/
def execAndAbs (a : Addr) (s : State) : Result := readMem 4 false (.absolute a) andA s

/-- $31 AND (zp),Y (rule R180). -/
def execAndIndY (z : Byte) (s : State) : Result := readMem 5 true (.indirectY z) andA s

/-- $35 AND zp,X (rule R180). -/
def execAndZpX (z : Byte) (s : State) : Result := readMem 4 false (.zeropageX z) andA s

/-- $39 AND abs,Y (rule R180). -/
def execAndAbsY (a : Addr) (s : State) : Result := readMem 4 true (.absoluteY a) andA s

/-- $3D AND abs,X (rule R180). -/
def execAndAbsX (a : Addr) (s : State) : Result := readMem 4 true (.absoluteX a) andA s

/-! ### ORA -/

/-- $01 ORA (zp,X) (rule R181). -/
def execOraIndX (z : Byte) (s : State) : Result := readMem 6 false (.indirectX z) oraA s

/-- $05 ORA zp (rule R181). -/
def execOraZp (z : Byte) (s : State) : Result := readMem 3 false (.zeropage z) oraA s

/-- $09 ORA # (rule R181). -/
def execOraImm (v : Byte) (s : State) : Result := immediate 2 v oraA s

/-- $0D ORA abs (rule R181). -/
def execOraAbs (a : Addr) (s : State) : Result := readMem 4 false (.absolute a) oraA s

/-- $11 ORA (zp),Y (rule R181). -/
def execOraIndY (z : Byte) (s : State) : Result := readMem 5 true (.indirectY z) oraA s

/-- $15 ORA zp,X (rule R181). -/
def execOraZpX (z : Byte) (s : State) : Result := readMem 4 false (.zeropageX z) oraA s

/-- $19 ORA abs,Y (rule R181). -/
def execOraAbsY (a : Addr) (s : State) : Result := readMem 4 true (.absoluteY a) oraA s

/-- $1D ORA abs,X (rule R181). -/
def execOraAbsX (a : Addr) (s : State) : Result := readMem 4 true (.absoluteX a) oraA s

/-! ### EOR -/

/-- $41 EOR (zp,X) (rule R182). -/
def execEorIndX (z : Byte) (s : State) : Result := readMem 6 false (.indirectX z) eorA s

/-- $45 EOR zp (rule R182). -/
def execEorZp (z : Byte) (s : State) : Result := readMem 3 false (.zeropage z) eorA s

/-- $49 EOR # (rule R182). -/
def execEorImm (v : Byte) (s : State) : Result := immediate 2 v eorA s

/-- $4D EOR abs (rule R182). -/
def execEorAbs (a : Addr) (s : State) : Result := readMem 4 false (.absolute a) eorA s

/-- $51 EOR (zp),Y (rule R182). -/
def execEorIndY (z : Byte) (s : State) : Result := readMem 5 true (.indirectY z) eorA s

/-- $55 EOR zp,X (rule R182). -/
def execEorZpX (z : Byte) (s : State) : Result := readMem 4 false (.zeropageX z) eorA s

/-- $59 EOR abs,Y (rule R182). -/
def execEorAbsY (a : Addr) (s : State) : Result := readMem 4 true (.absoluteY a) eorA s

/-- $5D EOR abs,X (rule R182). -/
def execEorAbsX (a : Addr) (s : State) : Result := readMem 4 true (.absoluteX a) eorA s

/-! ### BIT -/

/-- $24 BIT zp (rule R183). -/
def execBitZp (z : Byte) (s : State) : Result := readMem 3 false (.zeropage z) bitA s

/-- $2C BIT abs (rule R183). -/
def execBitAbs (a : Addr) (s : State) : Result := readMem 4 false (.absolute a) bitA s

/-! ### ADC -/

/-- $61 ADC (zp,X) (rule R184). -/
def execAdcIndX (z : Byte) (s : State) : Result := readMem 6 false (.indirectX z) adc s

/-- $65 ADC zp (rule R184). -/
def execAdcZp (z : Byte) (s : State) : Result := readMem 3 false (.zeropage z) adc s

/-- $69 ADC # (rule R184). -/
def execAdcImm (v : Byte) (s : State) : Result := immediate 2 v adc s

/-- $6D ADC abs (rule R184). -/
def execAdcAbs (a : Addr) (s : State) : Result := readMem 4 false (.absolute a) adc s

/-- $71 ADC (zp),Y (rule R184). -/
def execAdcIndY (z : Byte) (s : State) : Result := readMem 5 true (.indirectY z) adc s

/-- $75 ADC zp,X (rule R184). -/
def execAdcZpX (z : Byte) (s : State) : Result := readMem 4 false (.zeropageX z) adc s

/-- $79 ADC abs,Y (rule R184). -/
def execAdcAbsY (a : Addr) (s : State) : Result := readMem 4 true (.absoluteY a) adc s

/-- $7D ADC abs,X (rule R184). -/
def execAdcAbsX (a : Addr) (s : State) : Result := readMem 4 true (.absoluteX a) adc s

/-! ### SBC -/

/-- $E1 SBC (zp,X) (rule R185). -/
def execSbcIndX (z : Byte) (s : State) : Result := readMem 6 false (.indirectX z) sbc s

/-- $E5 SBC zp (rule R185). -/
def execSbcZp (z : Byte) (s : State) : Result := readMem 3 false (.zeropage z) sbc s

/-- $E9 SBC # (rule R185). -/
def execSbcImm (v : Byte) (s : State) : Result := immediate 2 v sbc s

/-- $ED SBC abs (rule R185). -/
def execSbcAbs (a : Addr) (s : State) : Result := readMem 4 false (.absolute a) sbc s

/-- $F1 SBC (zp),Y (rule R185). -/
def execSbcIndY (z : Byte) (s : State) : Result := readMem 5 true (.indirectY z) sbc s

/-- $F5 SBC zp,X (rule R185). -/
def execSbcZpX (z : Byte) (s : State) : Result := readMem 4 false (.zeropageX z) sbc s

/-- $F9 SBC abs,Y (rule R185). -/
def execSbcAbsY (a : Addr) (s : State) : Result := readMem 4 true (.absoluteY a) sbc s

/-- $FD SBC abs,X (rule R185). -/
def execSbcAbsX (a : Addr) (s : State) : Result := readMem 4 true (.absoluteX a) sbc s

/-! ### CMP -/

/-- $C1 CMP (zp,X) (rule R186). -/
def execCmpIndX (z : Byte) (s : State) : Result := readMem 6 false (.indirectX z) cmpA s

/-- $C5 CMP zp (rule R186). -/
def execCmpZp (z : Byte) (s : State) : Result := readMem 3 false (.zeropage z) cmpA s

/-- $C9 CMP # (rule R186). -/
def execCmpImm (v : Byte) (s : State) : Result := immediate 2 v cmpA s

/-- $CD CMP abs (rule R186). -/
def execCmpAbs (a : Addr) (s : State) : Result := readMem 4 false (.absolute a) cmpA s

/-- $D1 CMP (zp),Y (rule R186). -/
def execCmpIndY (z : Byte) (s : State) : Result := readMem 5 true (.indirectY z) cmpA s

/-- $D5 CMP zp,X (rule R186). -/
def execCmpZpX (z : Byte) (s : State) : Result := readMem 4 false (.zeropageX z) cmpA s

/-- $D9 CMP abs,Y (rule R186). -/
def execCmpAbsY (a : Addr) (s : State) : Result := readMem 4 true (.absoluteY a) cmpA s

/-- $DD CMP abs,X (rule R186). -/
def execCmpAbsX (a : Addr) (s : State) : Result := readMem 4 true (.absoluteX a) cmpA s

/-! ### CPX -/

/-- $E0 CPX # (rule R187). -/
def execCpxImm (v : Byte) (s : State) : Result := immediate 2 v cmpX s

/-- $E4 CPX zp (rule R187). -/
def execCpxZp (z : Byte) (s : State) : Result := readMem 3 false (.zeropage z) cmpX s

/-- $EC CPX abs (rule R187). -/
def execCpxAbs (a : Addr) (s : State) : Result := readMem 4 false (.absolute a) cmpX s

/-! ### CPY -/

/-- $C0 CPY # (rule R188). -/
def execCpyImm (v : Byte) (s : State) : Result := immediate 2 v cmpY s

/-- $C4 CPY zp (rule R188). -/
def execCpyZp (z : Byte) (s : State) : Result := readMem 3 false (.zeropage z) cmpY s

/-- $CC CPY abs (rule R188). -/
def execCpyAbs (a : Addr) (s : State) : Result := readMem 4 false (.absolute a) cmpY s

end Sys2Proof.Machine
end

