-- ==== Sys2Proof/Machine/Shift.lean ====
section
/-! DEFINITION. The meanings of increments, decrements, shifts and rotates (spec/44_inc_dec_shift.md rules R200 to R209).
One definition per opcode; the baseline cost is that of its row in the opcode table (rules R105, R106). -/

namespace Sys2Proof.Machine

/-! ### INC -/

/-- $E6 INC zp (rule R200). -/
def execIncZp (z : Byte) (s : State) : Result := modifyMem 5 (.zeropage z) incByte setNZ s

/-- $EE INC abs (rule R200). -/
def execIncAbs (a : Addr) (s : State) : Result := modifyMem 6 (.absolute a) incByte setNZ s

/-- $F6 INC zp,X (rule R200). -/
def execIncZpX (z : Byte) (s : State) : Result := modifyMem 6 (.zeropageX z) incByte setNZ s

/-- $FE INC abs,X (rule R200). -/
def execIncAbsX (a : Addr) (s : State) : Result := modifyMem 7 (.absoluteX a) incByte setNZ s

/-! ### DEC -/

/-- $C6 DEC zp (rule R201). -/
def execDecZp (z : Byte) (s : State) : Result := modifyMem 5 (.zeropage z) decByte setNZ s

/-- $CE DEC abs (rule R201). -/
def execDecAbs (a : Addr) (s : State) : Result := modifyMem 6 (.absolute a) decByte setNZ s

/-- $D6 DEC zp,X (rule R201). -/
def execDecZpX (z : Byte) (s : State) : Result := modifyMem 6 (.zeropageX z) decByte setNZ s

/-- $DE DEC abs,X (rule R201). -/
def execDecAbsX (a : Addr) (s : State) : Result := modifyMem 7 (.absoluteX a) decByte setNZ s

/-! ### INX -/

/-- $E8 INX (rule R202). -/
def execInx (s : State) : Result := implied 2 (fun c => loadX (c.x + 1#8) c) s

/-! ### INY -/

/-- $C8 INY (rule R203). -/
def execIny (s : State) : Result := implied 2 (fun c => loadY (c.y + 1#8) c) s

/-! ### DEX -/

/-- $CA DEX (rule R204). -/
def execDex (s : State) : Result := implied 2 (fun c => loadX (c.x - 1#8) c) s

/-! ### DEY -/

/-- $88 DEY (rule R205). -/
def execDey (s : State) : Result := implied 2 (fun c => loadY (c.y - 1#8) c) s

/-! ### ASL -/

/-- $06 ASL zp (rule R206). -/
def execAslZp (z : Byte) (s : State) : Result := modifyMem 5 (.zeropage z) aslByte setNZ s

/-- $0A ASL A (rule R206). -/
def execAslA (s : State) : Result := modifyAcc 2 aslByte s

/-- $0E ASL abs (rule R206). -/
def execAslAbs (a : Addr) (s : State) : Result := modifyMem 6 (.absolute a) aslByte setNZ s

/-- $16 ASL zp,X (rule R206). -/
def execAslZpX (z : Byte) (s : State) : Result := modifyMem 6 (.zeropageX z) aslByte setNZ s

/-- $1E ASL abs,X (rule R206). -/
def execAslAbsX (a : Addr) (s : State) : Result := modifyMem 7 (.absoluteX a) aslByte setNZ s

/-! ### LSR -/

/-- $46 LSR zp (rule R207). -/
def execLsrZp (z : Byte) (s : State) : Result := modifyMem 5 (.zeropage z) lsrByte setNZ s

/-- $4A LSR A (rule R207). -/
def execLsrA (s : State) : Result := modifyAcc 2 lsrByte s

/-- $4E LSR abs (rule R207). -/
def execLsrAbs (a : Addr) (s : State) : Result := modifyMem 6 (.absolute a) lsrByte setNZ s

/-- $56 LSR zp,X (rule R207). -/
def execLsrZpX (z : Byte) (s : State) : Result := modifyMem 6 (.zeropageX z) lsrByte setNZ s

/-- $5E LSR abs,X (rule R207). -/
def execLsrAbsX (a : Addr) (s : State) : Result := modifyMem 7 (.absoluteX a) lsrByte setNZ s

/-! ### ROL -/

/-- $26 ROL zp (rule R208). -/
def execRolZp (z : Byte) (s : State) : Result := modifyMem 5 (.zeropage z) rolByte setNZ s

/-- $2A ROL A (rule R208). -/
def execRolA (s : State) : Result := modifyAcc 2 rolByte s

/-- $2E ROL abs (rule R208). -/
def execRolAbs (a : Addr) (s : State) : Result := modifyMem 6 (.absolute a) rolByte setNZ s

/-- $36 ROL zp,X (rule R208). -/
def execRolZpX (z : Byte) (s : State) : Result := modifyMem 6 (.zeropageX z) rolByte setNZ s

/-- $3E ROL abs,X (rule R208). -/
def execRolAbsX (a : Addr) (s : State) : Result := modifyMem 7 (.absoluteX a) rolByte setNZ s

/-! ### ROR -/

/-- $66 ROR zp (rule R209). -/
def execRorZp (z : Byte) (s : State) : Result := modifyMem 5 (.zeropage z) rorByte setNZ s

/-- $6A ROR A (rule R209). -/
def execRorA (s : State) : Result := modifyAcc 2 rorByte s

/-- $6E ROR abs (rule R209). -/
def execRorAbs (a : Addr) (s : State) : Result := modifyMem 6 (.absolute a) rorByte setNZ s

/-- $76 ROR zp,X (rule R209). -/
def execRorZpX (z : Byte) (s : State) : Result := modifyMem 6 (.zeropageX z) rorByte setNZ s

/-- $7E ROR abs,X (rule R209). -/
def execRorAbsX (a : Addr) (s : State) : Result := modifyMem 7 (.absoluteX a) rorByte setNZ s

end Sys2Proof.Machine
end

