-- ==== Sys2Proof/Machine/Stack.lean ====
section
/-! DEFINITION. The meanings of the stack instructions (spec/42_stack.md rules R170 to R173).
One definition per opcode; the baseline cost is that of its row in the opcode table (rules R105, R106). -/

namespace Sys2Proof.Machine

/-! ### PHA -/

/-- $48 PHA (rule R170). -/
def execPha (s : State) : Result := .next ((push s.cpu.a s).charge 3)

/-! ### PHP -/

/-- $08 PHP (rule R171). -/
def execPhp (s : State) : Result := .next ((push (pushedByBrk s.cpu.p) s).charge 3)

/-! ### PLA -/

/-- $68 PLA (rule R172). -/
def execPla (s : State) : Result :=
  let (v, s) := pull s
  .next ((s.mapCpu (loadA v)).charge 4)

/-! ### PLP -/

/-- $28 PLP (rule R173). -/
def execPlp (s : State) : Result :=
  let (v, s) := pull s
  .next ((s.mapCpu fun c => { c with p := pulledStatus v }).charge 4)

end Sys2Proof.Machine
end

