-- ==== Sys2Proof/Machine/Unofficial.lean ====
section
/-! DEFINITION. The meanings of the unofficial opcodes (spec/47_unofficial.md rules R251 to R278).
One definition per opcode; the baseline cost is that of its row in the opcode table (rules R105, R106). -/

namespace Sys2Proof.Machine

/-! ### NOP -/

/-- $1A NOP (rule R251). -/
def execNop1A (s : State) : Result := implied 2 id s

/-- $3A NOP (rule R251). -/
def execNop3A (s : State) : Result := implied 2 id s

/-- $5A NOP (rule R251). -/
def execNop5A (s : State) : Result := implied 2 id s

/-- $7A NOP (rule R251). -/
def execNop7A (s : State) : Result := implied 2 id s

/-- $DA NOP (rule R251). -/
def execNopDA (s : State) : Result := implied 2 id s

/-- $FA NOP (rule R251). -/
def execNopFA (s : State) : Result := implied 2 id s

/-- $80 NOP # (rule R252). -/
def execNopImm80 (v : Byte) (s : State) : Result := immediate 2 v (fun _ c => c) s

/-- $82 NOP # (rule R252). -/
def execNopImm82 (v : Byte) (s : State) : Result := immediate 2 v (fun _ c => c) s

/-- $89 NOP # (rule R252). -/
def execNopImm89 (v : Byte) (s : State) : Result := immediate 2 v (fun _ c => c) s

/-- $C2 NOP # (rule R252). -/
def execNopImmC2 (v : Byte) (s : State) : Result := immediate 2 v (fun _ c => c) s

/-- $E2 NOP # (rule R252). -/
def execNopImmE2 (v : Byte) (s : State) : Result := immediate 2 v (fun _ c => c) s

/-- $04 NOP zp (rule R253). -/
def execNopZp04 (z : Byte) (s : State) : Result := readMem 3 false (.zeropage z) (fun _ c => c) s

/-- $0C NOP abs (rule R253). -/
def execNopAbs (a : Addr) (s : State) : Result := readMem 4 false (.absolute a) (fun _ c => c) s

/-- $14 NOP zp,X (rule R253). -/
def execNopZpX14 (z : Byte) (s : State) : Result := readMem 4 false (.zeropageX z) (fun _ c => c) s

/-- $1C NOP abs,X (rule R253). -/
def execNopAbsX1C (a : Addr) (s : State) : Result := readMem 4 true (.absoluteX a) (fun _ c => c) s

/-- $34 NOP zp,X (rule R253). -/
def execNopZpX34 (z : Byte) (s : State) : Result := readMem 4 false (.zeropageX z) (fun _ c => c) s

/-- $3C NOP abs,X (rule R253). -/
def execNopAbsX3C (a : Addr) (s : State) : Result := readMem 4 true (.absoluteX a) (fun _ c => c) s

/-- $44 NOP zp (rule R253). -/
def execNopZp44 (z : Byte) (s : State) : Result := readMem 3 false (.zeropage z) (fun _ c => c) s

/-- $54 NOP zp,X (rule R253). -/
def execNopZpX54 (z : Byte) (s : State) : Result := readMem 4 false (.zeropageX z) (fun _ c => c) s

/-- $5C NOP abs,X (rule R253). -/
def execNopAbsX5C (a : Addr) (s : State) : Result := readMem 4 true (.absoluteX a) (fun _ c => c) s

/-- $64 NOP zp (rule R253). -/
def execNopZp64 (z : Byte) (s : State) : Result := readMem 3 false (.zeropage z) (fun _ c => c) s

/-- $74 NOP zp,X (rule R253). -/
def execNopZpX74 (z : Byte) (s : State) : Result := readMem 4 false (.zeropageX z) (fun _ c => c) s

/-- $7C NOP abs,X (rule R253). -/
def execNopAbsX7C (a : Addr) (s : State) : Result := readMem 4 true (.absoluteX a) (fun _ c => c) s

/-- $D4 NOP zp,X (rule R253). -/
def execNopZpXD4 (z : Byte) (s : State) : Result := readMem 4 false (.zeropageX z) (fun _ c => c) s

/-- $DC NOP abs,X (rule R253). -/
def execNopAbsXDC (a : Addr) (s : State) : Result := readMem 4 true (.absoluteX a) (fun _ c => c) s

/-- $F4 NOP zp,X (rule R253). -/
def execNopZpXF4 (z : Byte) (s : State) : Result := readMem 4 false (.zeropageX z) (fun _ c => c) s

/-- $FC NOP abs,X (rule R253). -/
def execNopAbsXFC (a : Addr) (s : State) : Result := readMem 4 true (.absoluteX a) (fun _ c => c) s

/-! ### LAX -/

/-- $A3 LAX (zp,X) (rule R255). -/
def execLaxIndX (z : Byte) (s : State) : Result := readMem 6 false (.indirectX z) loadAX s

/-- $A7 LAX zp (rule R255). -/
def execLaxZp (z : Byte) (s : State) : Result := readMem 3 false (.zeropage z) loadAX s

/-- $AF LAX abs (rule R255). -/
def execLaxAbs (a : Addr) (s : State) : Result := readMem 4 false (.absolute a) loadAX s

/-- $B3 LAX (zp),Y (rule R255). -/
def execLaxIndY (z : Byte) (s : State) : Result := readMem 5 true (.indirectY z) loadAX s

/-- $B7 LAX zp,Y (rule R255). -/
def execLaxZpY (z : Byte) (s : State) : Result := readMem 4 false (.zeropageY z) loadAX s

/-- $BF LAX abs,Y (rule R255). -/
def execLaxAbsY (a : Addr) (s : State) : Result := readMem 4 true (.absoluteY a) loadAX s

/-! ### SAX -/

/-- $83 SAX (zp,X) (rule R256). -/
def execSaxIndX (z : Byte) (s : State) : Result := writeMem 6 (.indirectX z) (fun c => c.a &&& c.x) s

/-- $87 SAX zp (rule R256). -/
def execSaxZp (z : Byte) (s : State) : Result := writeMem 3 (.zeropage z) (fun c => c.a &&& c.x) s

/-- $8F SAX abs (rule R256). -/
def execSaxAbs (a : Addr) (s : State) : Result := writeMem 4 (.absolute a) (fun c => c.a &&& c.x) s

/-- $97 SAX zp,Y (rule R256). -/
def execSaxZpY (z : Byte) (s : State) : Result := writeMem 4 (.zeropageY z) (fun c => c.a &&& c.x) s

/-! ### SBC -/

/-- $EB SBC # (rule R257). -/
def execSbcImmEB (v : Byte) (s : State) : Result := immediate 2 v sbc s

/-! ### DCP -/

/-- $C3 DCP (zp,X) (rule R258). -/
def execDcpIndX (z : Byte) (s : State) : Result := modifyMem 8 (.indirectX z) decByte cmpA s

/-- $C7 DCP zp (rule R258). -/
def execDcpZp (z : Byte) (s : State) : Result := modifyMem 5 (.zeropage z) decByte cmpA s

/-- $CF DCP abs (rule R258). -/
def execDcpAbs (a : Addr) (s : State) : Result := modifyMem 6 (.absolute a) decByte cmpA s

/-- $D3 DCP (zp),Y (rule R258). -/
def execDcpIndY (z : Byte) (s : State) : Result := modifyMem 8 (.indirectY z) decByte cmpA s

/-- $D7 DCP zp,X (rule R258). -/
def execDcpZpX (z : Byte) (s : State) : Result := modifyMem 6 (.zeropageX z) decByte cmpA s

/-- $DB DCP abs,Y (rule R258). -/
def execDcpAbsY (a : Addr) (s : State) : Result := modifyMem 7 (.absoluteY a) decByte cmpA s

/-- $DF DCP abs,X (rule R258). -/
def execDcpAbsX (a : Addr) (s : State) : Result := modifyMem 7 (.absoluteX a) decByte cmpA s

/-! ### ISC -/

/-- $E3 ISC (zp,X) (rule R259). -/
def execIscIndX (z : Byte) (s : State) : Result := modifyMem 8 (.indirectX z) incByte sbc s

/-- $E7 ISC zp (rule R259). -/
def execIscZp (z : Byte) (s : State) : Result := modifyMem 5 (.zeropage z) incByte sbc s

/-- $EF ISC abs (rule R259). -/
def execIscAbs (a : Addr) (s : State) : Result := modifyMem 6 (.absolute a) incByte sbc s

/-- $F3 ISC (zp),Y (rule R259). -/
def execIscIndY (z : Byte) (s : State) : Result := modifyMem 8 (.indirectY z) incByte sbc s

/-- $F7 ISC zp,X (rule R259). -/
def execIscZpX (z : Byte) (s : State) : Result := modifyMem 6 (.zeropageX z) incByte sbc s

/-- $FB ISC abs,Y (rule R259). -/
def execIscAbsY (a : Addr) (s : State) : Result := modifyMem 7 (.absoluteY a) incByte sbc s

/-- $FF ISC abs,X (rule R259). -/
def execIscAbsX (a : Addr) (s : State) : Result := modifyMem 7 (.absoluteX a) incByte sbc s

/-! ### SLO -/

/-- $03 SLO (zp,X) (rule R260). -/
def execSloIndX (z : Byte) (s : State) : Result := modifyMem 8 (.indirectX z) aslByte oraA s

/-- $07 SLO zp (rule R260). -/
def execSloZp (z : Byte) (s : State) : Result := modifyMem 5 (.zeropage z) aslByte oraA s

/-- $0F SLO abs (rule R260). -/
def execSloAbs (a : Addr) (s : State) : Result := modifyMem 6 (.absolute a) aslByte oraA s

/-- $13 SLO (zp),Y (rule R260). -/
def execSloIndY (z : Byte) (s : State) : Result := modifyMem 8 (.indirectY z) aslByte oraA s

/-- $17 SLO zp,X (rule R260). -/
def execSloZpX (z : Byte) (s : State) : Result := modifyMem 6 (.zeropageX z) aslByte oraA s

/-- $1B SLO abs,Y (rule R260). -/
def execSloAbsY (a : Addr) (s : State) : Result := modifyMem 7 (.absoluteY a) aslByte oraA s

/-- $1F SLO abs,X (rule R260). -/
def execSloAbsX (a : Addr) (s : State) : Result := modifyMem 7 (.absoluteX a) aslByte oraA s

/-! ### RLA -/

/-- $23 RLA (zp,X) (rule R261). -/
def execRlaIndX (z : Byte) (s : State) : Result := modifyMem 8 (.indirectX z) rolByte andA s

/-- $27 RLA zp (rule R261). -/
def execRlaZp (z : Byte) (s : State) : Result := modifyMem 5 (.zeropage z) rolByte andA s

/-- $2F RLA abs (rule R261). -/
def execRlaAbs (a : Addr) (s : State) : Result := modifyMem 6 (.absolute a) rolByte andA s

/-- $33 RLA (zp),Y (rule R261). -/
def execRlaIndY (z : Byte) (s : State) : Result := modifyMem 8 (.indirectY z) rolByte andA s

/-- $37 RLA zp,X (rule R261). -/
def execRlaZpX (z : Byte) (s : State) : Result := modifyMem 6 (.zeropageX z) rolByte andA s

/-- $3B RLA abs,Y (rule R261). -/
def execRlaAbsY (a : Addr) (s : State) : Result := modifyMem 7 (.absoluteY a) rolByte andA s

/-- $3F RLA abs,X (rule R261). -/
def execRlaAbsX (a : Addr) (s : State) : Result := modifyMem 7 (.absoluteX a) rolByte andA s

/-! ### SRE -/

/-- $43 SRE (zp,X) (rule R262). -/
def execSreIndX (z : Byte) (s : State) : Result := modifyMem 8 (.indirectX z) lsrByte eorA s

/-- $47 SRE zp (rule R262). -/
def execSreZp (z : Byte) (s : State) : Result := modifyMem 5 (.zeropage z) lsrByte eorA s

/-- $4F SRE abs (rule R262). -/
def execSreAbs (a : Addr) (s : State) : Result := modifyMem 6 (.absolute a) lsrByte eorA s

/-- $53 SRE (zp),Y (rule R262). -/
def execSreIndY (z : Byte) (s : State) : Result := modifyMem 8 (.indirectY z) lsrByte eorA s

/-- $57 SRE zp,X (rule R262). -/
def execSreZpX (z : Byte) (s : State) : Result := modifyMem 6 (.zeropageX z) lsrByte eorA s

/-- $5B SRE abs,Y (rule R262). -/
def execSreAbsY (a : Addr) (s : State) : Result := modifyMem 7 (.absoluteY a) lsrByte eorA s

/-- $5F SRE abs,X (rule R262). -/
def execSreAbsX (a : Addr) (s : State) : Result := modifyMem 7 (.absoluteX a) lsrByte eorA s

/-! ### RRA -/

/-- $63 RRA (zp,X) (rule R263). -/
def execRraIndX (z : Byte) (s : State) : Result := modifyMem 8 (.indirectX z) rorByte adc s

/-- $67 RRA zp (rule R263). -/
def execRraZp (z : Byte) (s : State) : Result := modifyMem 5 (.zeropage z) rorByte adc s

/-- $6F RRA abs (rule R263). -/
def execRraAbs (a : Addr) (s : State) : Result := modifyMem 6 (.absolute a) rorByte adc s

/-- $73 RRA (zp),Y (rule R263). -/
def execRraIndY (z : Byte) (s : State) : Result := modifyMem 8 (.indirectY z) rorByte adc s

/-- $77 RRA zp,X (rule R263). -/
def execRraZpX (z : Byte) (s : State) : Result := modifyMem 6 (.zeropageX z) rorByte adc s

/-- $7B RRA abs,Y (rule R263). -/
def execRraAbsY (a : Addr) (s : State) : Result := modifyMem 7 (.absoluteY a) rorByte adc s

/-- $7F RRA abs,X (rule R263). -/
def execRraAbsX (a : Addr) (s : State) : Result := modifyMem 7 (.absoluteX a) rorByte adc s

/-! ### ANC -/

/-- $0B ANC # (rule R264). -/
def execAncImm0B (v : Byte) (s : State) : Result := immediate 2 v anc s

/-- $2B ANC # (rule R264). -/
def execAncImm2B (v : Byte) (s : State) : Result := immediate 2 v anc s

/-! ### ALR -/

/-- $4B ALR # (rule R265). -/
def execAlrImm (v : Byte) (s : State) : Result := immediate 2 v alr s

/-! ### ARR -/

/-- $6B ARR # (rule R266). -/
def execArrImm (v : Byte) (s : State) : Result := immediate 2 v arr s

/-! ### AXS -/

/-- $CB AXS # (rule R267). -/
def execAxsImm (v : Byte) (s : State) : Result := immediate 2 v axs s

/-! ### XAA -/

/-- $8B XAA # (rule R271). -/
def execXaaImm (_ : Byte) (s : State) : Result := unstable .XAA 2 s

/-! ### LXA -/

/-- $AB LXA # (rule R272). -/
def execLxaImm (_ : Byte) (s : State) : Result := unstable .LXA 2 s

/-! ### SHA -/

/-- $93 SHA (zp),Y (rule R273). -/
def execShaIndY (_ : Byte) (s : State) : Result := unstable .SHA 6 s

/-- $9F SHA abs,Y (rule R273). -/
def execShaAbsY (_ : Addr) (s : State) : Result := unstable .SHA 5 s

/-! ### SHY -/

/-- $9C SHY abs,X (rule R274). -/
def execShyAbsX (_ : Addr) (s : State) : Result := unstable .SHY 5 s

/-! ### SHX -/

/-- $9E SHX abs,Y (rule R275). -/
def execShxAbsY (_ : Addr) (s : State) : Result := unstable .SHX 5 s

/-! ### TAS -/

/-- $9B TAS abs,Y (rule R276). -/
def execTasAbsY (_ : Addr) (s : State) : Result := unstable .TAS 5 s

/-! ### LAS -/

/-- $BB LAS abs,Y (rule R277). -/
def execLasAbsY (_ : Addr) (s : State) : Result := unstable .LAS 4 s

/-! ### JAM -/

/-- $02 JAM (rule R278). -/
def execJam02 (s : State) : Result := unstable .JAM 2 s

/-- $12 JAM (rule R278). -/
def execJam12 (s : State) : Result := unstable .JAM 2 s

/-- $22 JAM (rule R278). -/
def execJam22 (s : State) : Result := unstable .JAM 2 s

/-- $32 JAM (rule R278). -/
def execJam32 (s : State) : Result := unstable .JAM 2 s

/-- $42 JAM (rule R278). -/
def execJam42 (s : State) : Result := unstable .JAM 2 s

/-- $52 JAM (rule R278). -/
def execJam52 (s : State) : Result := unstable .JAM 2 s

/-- $62 JAM (rule R278). -/
def execJam62 (s : State) : Result := unstable .JAM 2 s

/-- $72 JAM (rule R278). -/
def execJam72 (s : State) : Result := unstable .JAM 2 s

/-- $92 JAM (rule R278). -/
def execJam92 (s : State) : Result := unstable .JAM 2 s

/-- $B2 JAM (rule R278). -/
def execJamB2 (s : State) : Result := unstable .JAM 2 s

/-- $D2 JAM (rule R278). -/
def execJamD2 (s : State) : Result := unstable .JAM 2 s

/-- $F2 JAM (rule R278). -/
def execJamF2 (s : State) : Result := unstable .JAM 2 s

end Sys2Proof.Machine
end

