-- ==== Sys2Proof/Machine/Dispatch.lean ====
section
/-! DEFINITION. One arm per constructor of `Instr`, in opcode order. -/

namespace Sys2Proof.Machine

/-- The meaning of an instruction whose bytes have been fetched. -/
def exec (i : Instr) (s : State) : Host.Outcome State Fault Refusal :=
  match i with
  | .brk => Sys2Proof.Machine.execBrk s
  | .oraIndX z => Sys2Proof.Machine.execOraIndX z s
  | .jam02 => Sys2Proof.Machine.execJam02 s
  | .sloIndX z => Sys2Proof.Machine.execSloIndX z s
  | .nopZp04 z => Sys2Proof.Machine.execNopZp04 z s
  | .oraZp z => Sys2Proof.Machine.execOraZp z s
  | .aslZp z => Sys2Proof.Machine.execAslZp z s
  | .sloZp z => Sys2Proof.Machine.execSloZp z s
  | .php => Sys2Proof.Machine.execPhp s
  | .oraImm v => Sys2Proof.Machine.execOraImm v s
  | .aslA => Sys2Proof.Machine.execAslA s
  | .ancImm0B v => Sys2Proof.Machine.execAncImm0B v s
  | .nopAbs a => Sys2Proof.Machine.execNopAbs a s
  | .oraAbs a => Sys2Proof.Machine.execOraAbs a s
  | .aslAbs a => Sys2Proof.Machine.execAslAbs a s
  | .sloAbs a => Sys2Proof.Machine.execSloAbs a s
  | .bpl d => Sys2Proof.Machine.execBpl d s
  | .oraIndY z => Sys2Proof.Machine.execOraIndY z s
  | .jam12 => Sys2Proof.Machine.execJam12 s
  | .sloIndY z => Sys2Proof.Machine.execSloIndY z s
  | .nopZpX14 z => Sys2Proof.Machine.execNopZpX14 z s
  | .oraZpX z => Sys2Proof.Machine.execOraZpX z s
  | .aslZpX z => Sys2Proof.Machine.execAslZpX z s
  | .sloZpX z => Sys2Proof.Machine.execSloZpX z s
  | .clc => Sys2Proof.Machine.execClc s
  | .oraAbsY a => Sys2Proof.Machine.execOraAbsY a s
  | .nop1A => Sys2Proof.Machine.execNop1A s
  | .sloAbsY a => Sys2Proof.Machine.execSloAbsY a s
  | .nopAbsX1C a => Sys2Proof.Machine.execNopAbsX1C a s
  | .oraAbsX a => Sys2Proof.Machine.execOraAbsX a s
  | .aslAbsX a => Sys2Proof.Machine.execAslAbsX a s
  | .sloAbsX a => Sys2Proof.Machine.execSloAbsX a s
  | .jsrAbs a => Sys2Proof.Machine.execJsrAbs a s
  | .andIndX z => Sys2Proof.Machine.execAndIndX z s
  | .jam22 => Sys2Proof.Machine.execJam22 s
  | .rlaIndX z => Sys2Proof.Machine.execRlaIndX z s
  | .bitZp z => Sys2Proof.Machine.execBitZp z s
  | .andZp z => Sys2Proof.Machine.execAndZp z s
  | .rolZp z => Sys2Proof.Machine.execRolZp z s
  | .rlaZp z => Sys2Proof.Machine.execRlaZp z s
  | .plp => Sys2Proof.Machine.execPlp s
  | .andImm v => Sys2Proof.Machine.execAndImm v s
  | .rolA => Sys2Proof.Machine.execRolA s
  | .ancImm2B v => Sys2Proof.Machine.execAncImm2B v s
  | .bitAbs a => Sys2Proof.Machine.execBitAbs a s
  | .andAbs a => Sys2Proof.Machine.execAndAbs a s
  | .rolAbs a => Sys2Proof.Machine.execRolAbs a s
  | .rlaAbs a => Sys2Proof.Machine.execRlaAbs a s
  | .bmi d => Sys2Proof.Machine.execBmi d s
  | .andIndY z => Sys2Proof.Machine.execAndIndY z s
  | .jam32 => Sys2Proof.Machine.execJam32 s
  | .rlaIndY z => Sys2Proof.Machine.execRlaIndY z s
  | .nopZpX34 z => Sys2Proof.Machine.execNopZpX34 z s
  | .andZpX z => Sys2Proof.Machine.execAndZpX z s
  | .rolZpX z => Sys2Proof.Machine.execRolZpX z s
  | .rlaZpX z => Sys2Proof.Machine.execRlaZpX z s
  | .sec => Sys2Proof.Machine.execSec s
  | .andAbsY a => Sys2Proof.Machine.execAndAbsY a s
  | .nop3A => Sys2Proof.Machine.execNop3A s
  | .rlaAbsY a => Sys2Proof.Machine.execRlaAbsY a s
  | .nopAbsX3C a => Sys2Proof.Machine.execNopAbsX3C a s
  | .andAbsX a => Sys2Proof.Machine.execAndAbsX a s
  | .rolAbsX a => Sys2Proof.Machine.execRolAbsX a s
  | .rlaAbsX a => Sys2Proof.Machine.execRlaAbsX a s
  | .rti => Sys2Proof.Machine.execRti s
  | .eorIndX z => Sys2Proof.Machine.execEorIndX z s
  | .jam42 => Sys2Proof.Machine.execJam42 s
  | .sreIndX z => Sys2Proof.Machine.execSreIndX z s
  | .nopZp44 z => Sys2Proof.Machine.execNopZp44 z s
  | .eorZp z => Sys2Proof.Machine.execEorZp z s
  | .lsrZp z => Sys2Proof.Machine.execLsrZp z s
  | .sreZp z => Sys2Proof.Machine.execSreZp z s
  | .pha => Sys2Proof.Machine.execPha s
  | .eorImm v => Sys2Proof.Machine.execEorImm v s
  | .lsrA => Sys2Proof.Machine.execLsrA s
  | .alrImm v => Sys2Proof.Machine.execAlrImm v s
  | .jmpAbs a => Sys2Proof.Machine.execJmpAbs a s
  | .eorAbs a => Sys2Proof.Machine.execEorAbs a s
  | .lsrAbs a => Sys2Proof.Machine.execLsrAbs a s
  | .sreAbs a => Sys2Proof.Machine.execSreAbs a s
  | .bvc d => Sys2Proof.Machine.execBvc d s
  | .eorIndY z => Sys2Proof.Machine.execEorIndY z s
  | .jam52 => Sys2Proof.Machine.execJam52 s
  | .sreIndY z => Sys2Proof.Machine.execSreIndY z s
  | .nopZpX54 z => Sys2Proof.Machine.execNopZpX54 z s
  | .eorZpX z => Sys2Proof.Machine.execEorZpX z s
  | .lsrZpX z => Sys2Proof.Machine.execLsrZpX z s
  | .sreZpX z => Sys2Proof.Machine.execSreZpX z s
  | .cli => Sys2Proof.Machine.execCli s
  | .eorAbsY a => Sys2Proof.Machine.execEorAbsY a s
  | .nop5A => Sys2Proof.Machine.execNop5A s
  | .sreAbsY a => Sys2Proof.Machine.execSreAbsY a s
  | .nopAbsX5C a => Sys2Proof.Machine.execNopAbsX5C a s
  | .eorAbsX a => Sys2Proof.Machine.execEorAbsX a s
  | .lsrAbsX a => Sys2Proof.Machine.execLsrAbsX a s
  | .sreAbsX a => Sys2Proof.Machine.execSreAbsX a s
  | .rts => Sys2Proof.Machine.execRts s
  | .adcIndX z => Sys2Proof.Machine.execAdcIndX z s
  | .jam62 => Sys2Proof.Machine.execJam62 s
  | .rraIndX z => Sys2Proof.Machine.execRraIndX z s
  | .nopZp64 z => Sys2Proof.Machine.execNopZp64 z s
  | .adcZp z => Sys2Proof.Machine.execAdcZp z s
  | .rorZp z => Sys2Proof.Machine.execRorZp z s
  | .rraZp z => Sys2Proof.Machine.execRraZp z s
  | .pla => Sys2Proof.Machine.execPla s
  | .adcImm v => Sys2Proof.Machine.execAdcImm v s
  | .rorA => Sys2Proof.Machine.execRorA s
  | .arrImm v => Sys2Proof.Machine.execArrImm v s
  | .jmpInd a => Sys2Proof.Machine.execJmpInd a s
  | .adcAbs a => Sys2Proof.Machine.execAdcAbs a s
  | .rorAbs a => Sys2Proof.Machine.execRorAbs a s
  | .rraAbs a => Sys2Proof.Machine.execRraAbs a s
  | .bvs d => Sys2Proof.Machine.execBvs d s
  | .adcIndY z => Sys2Proof.Machine.execAdcIndY z s
  | .jam72 => Sys2Proof.Machine.execJam72 s
  | .rraIndY z => Sys2Proof.Machine.execRraIndY z s
  | .nopZpX74 z => Sys2Proof.Machine.execNopZpX74 z s
  | .adcZpX z => Sys2Proof.Machine.execAdcZpX z s
  | .rorZpX z => Sys2Proof.Machine.execRorZpX z s
  | .rraZpX z => Sys2Proof.Machine.execRraZpX z s
  | .sei => Sys2Proof.Machine.execSei s
  | .adcAbsY a => Sys2Proof.Machine.execAdcAbsY a s
  | .nop7A => Sys2Proof.Machine.execNop7A s
  | .rraAbsY a => Sys2Proof.Machine.execRraAbsY a s
  | .nopAbsX7C a => Sys2Proof.Machine.execNopAbsX7C a s
  | .adcAbsX a => Sys2Proof.Machine.execAdcAbsX a s
  | .rorAbsX a => Sys2Proof.Machine.execRorAbsX a s
  | .rraAbsX a => Sys2Proof.Machine.execRraAbsX a s
  | .nopImm80 v => Sys2Proof.Machine.execNopImm80 v s
  | .staIndX z => Sys2Proof.Machine.execStaIndX z s
  | .nopImm82 v => Sys2Proof.Machine.execNopImm82 v s
  | .saxIndX z => Sys2Proof.Machine.execSaxIndX z s
  | .styZp z => Sys2Proof.Machine.execStyZp z s
  | .staZp z => Sys2Proof.Machine.execStaZp z s
  | .stxZp z => Sys2Proof.Machine.execStxZp z s
  | .saxZp z => Sys2Proof.Machine.execSaxZp z s
  | .dey => Sys2Proof.Machine.execDey s
  | .nopImm89 v => Sys2Proof.Machine.execNopImm89 v s
  | .txa => Sys2Proof.Machine.execTxa s
  | .xaaImm v => Sys2Proof.Machine.execXaaImm v s
  | .styAbs a => Sys2Proof.Machine.execStyAbs a s
  | .staAbs a => Sys2Proof.Machine.execStaAbs a s
  | .stxAbs a => Sys2Proof.Machine.execStxAbs a s
  | .saxAbs a => Sys2Proof.Machine.execSaxAbs a s
  | .bcc d => Sys2Proof.Machine.execBcc d s
  | .staIndY z => Sys2Proof.Machine.execStaIndY z s
  | .jam92 => Sys2Proof.Machine.execJam92 s
  | .shaIndY z => Sys2Proof.Machine.execShaIndY z s
  | .styZpX z => Sys2Proof.Machine.execStyZpX z s
  | .staZpX z => Sys2Proof.Machine.execStaZpX z s
  | .stxZpY z => Sys2Proof.Machine.execStxZpY z s
  | .saxZpY z => Sys2Proof.Machine.execSaxZpY z s
  | .tya => Sys2Proof.Machine.execTya s
  | .staAbsY a => Sys2Proof.Machine.execStaAbsY a s
  | .txs => Sys2Proof.Machine.execTxs s
  | .tasAbsY a => Sys2Proof.Machine.execTasAbsY a s
  | .shyAbsX a => Sys2Proof.Machine.execShyAbsX a s
  | .staAbsX a => Sys2Proof.Machine.execStaAbsX a s
  | .shxAbsY a => Sys2Proof.Machine.execShxAbsY a s
  | .shaAbsY a => Sys2Proof.Machine.execShaAbsY a s
  | .ldyImm v => Sys2Proof.Machine.execLdyImm v s
  | .ldaIndX z => Sys2Proof.Machine.execLdaIndX z s
  | .ldxImm v => Sys2Proof.Machine.execLdxImm v s
  | .laxIndX z => Sys2Proof.Machine.execLaxIndX z s
  | .ldyZp z => Sys2Proof.Machine.execLdyZp z s
  | .ldaZp z => Sys2Proof.Machine.execLdaZp z s
  | .ldxZp z => Sys2Proof.Machine.execLdxZp z s
  | .laxZp z => Sys2Proof.Machine.execLaxZp z s
  | .tay => Sys2Proof.Machine.execTay s
  | .ldaImm v => Sys2Proof.Machine.execLdaImm v s
  | .tax => Sys2Proof.Machine.execTax s
  | .lxaImm v => Sys2Proof.Machine.execLxaImm v s
  | .ldyAbs a => Sys2Proof.Machine.execLdyAbs a s
  | .ldaAbs a => Sys2Proof.Machine.execLdaAbs a s
  | .ldxAbs a => Sys2Proof.Machine.execLdxAbs a s
  | .laxAbs a => Sys2Proof.Machine.execLaxAbs a s
  | .bcs d => Sys2Proof.Machine.execBcs d s
  | .ldaIndY z => Sys2Proof.Machine.execLdaIndY z s
  | .jamB2 => Sys2Proof.Machine.execJamB2 s
  | .laxIndY z => Sys2Proof.Machine.execLaxIndY z s
  | .ldyZpX z => Sys2Proof.Machine.execLdyZpX z s
  | .ldaZpX z => Sys2Proof.Machine.execLdaZpX z s
  | .ldxZpY z => Sys2Proof.Machine.execLdxZpY z s
  | .laxZpY z => Sys2Proof.Machine.execLaxZpY z s
  | .clv => Sys2Proof.Machine.execClv s
  | .ldaAbsY a => Sys2Proof.Machine.execLdaAbsY a s
  | .tsx => Sys2Proof.Machine.execTsx s
  | .lasAbsY a => Sys2Proof.Machine.execLasAbsY a s
  | .ldyAbsX a => Sys2Proof.Machine.execLdyAbsX a s
  | .ldaAbsX a => Sys2Proof.Machine.execLdaAbsX a s
  | .ldxAbsY a => Sys2Proof.Machine.execLdxAbsY a s
  | .laxAbsY a => Sys2Proof.Machine.execLaxAbsY a s
  | .cpyImm v => Sys2Proof.Machine.execCpyImm v s
  | .cmpIndX z => Sys2Proof.Machine.execCmpIndX z s
  | .nopImmC2 v => Sys2Proof.Machine.execNopImmC2 v s
  | .dcpIndX z => Sys2Proof.Machine.execDcpIndX z s
  | .cpyZp z => Sys2Proof.Machine.execCpyZp z s
  | .cmpZp z => Sys2Proof.Machine.execCmpZp z s
  | .decZp z => Sys2Proof.Machine.execDecZp z s
  | .dcpZp z => Sys2Proof.Machine.execDcpZp z s
  | .iny => Sys2Proof.Machine.execIny s
  | .cmpImm v => Sys2Proof.Machine.execCmpImm v s
  | .dex => Sys2Proof.Machine.execDex s
  | .axsImm v => Sys2Proof.Machine.execAxsImm v s
  | .cpyAbs a => Sys2Proof.Machine.execCpyAbs a s
  | .cmpAbs a => Sys2Proof.Machine.execCmpAbs a s
  | .decAbs a => Sys2Proof.Machine.execDecAbs a s
  | .dcpAbs a => Sys2Proof.Machine.execDcpAbs a s
  | .bne d => Sys2Proof.Machine.execBne d s
  | .cmpIndY z => Sys2Proof.Machine.execCmpIndY z s
  | .jamD2 => Sys2Proof.Machine.execJamD2 s
  | .dcpIndY z => Sys2Proof.Machine.execDcpIndY z s
  | .nopZpXD4 z => Sys2Proof.Machine.execNopZpXD4 z s
  | .cmpZpX z => Sys2Proof.Machine.execCmpZpX z s
  | .decZpX z => Sys2Proof.Machine.execDecZpX z s
  | .dcpZpX z => Sys2Proof.Machine.execDcpZpX z s
  | .cld => Sys2Proof.Machine.execCld s
  | .cmpAbsY a => Sys2Proof.Machine.execCmpAbsY a s
  | .nopDA => Sys2Proof.Machine.execNopDA s
  | .dcpAbsY a => Sys2Proof.Machine.execDcpAbsY a s
  | .nopAbsXDC a => Sys2Proof.Machine.execNopAbsXDC a s
  | .cmpAbsX a => Sys2Proof.Machine.execCmpAbsX a s
  | .decAbsX a => Sys2Proof.Machine.execDecAbsX a s
  | .dcpAbsX a => Sys2Proof.Machine.execDcpAbsX a s
  | .cpxImm v => Sys2Proof.Machine.execCpxImm v s
  | .sbcIndX z => Sys2Proof.Machine.execSbcIndX z s
  | .nopImmE2 v => Sys2Proof.Machine.execNopImmE2 v s
  | .iscIndX z => Sys2Proof.Machine.execIscIndX z s
  | .cpxZp z => Sys2Proof.Machine.execCpxZp z s
  | .sbcZp z => Sys2Proof.Machine.execSbcZp z s
  | .incZp z => Sys2Proof.Machine.execIncZp z s
  | .iscZp z => Sys2Proof.Machine.execIscZp z s
  | .inx => Sys2Proof.Machine.execInx s
  | .sbcImm v => Sys2Proof.Machine.execSbcImm v s
  | .nop => Sys2Proof.Machine.execNop s
  | .sbcImmEB v => Sys2Proof.Machine.execSbcImmEB v s
  | .cpxAbs a => Sys2Proof.Machine.execCpxAbs a s
  | .sbcAbs a => Sys2Proof.Machine.execSbcAbs a s
  | .incAbs a => Sys2Proof.Machine.execIncAbs a s
  | .iscAbs a => Sys2Proof.Machine.execIscAbs a s
  | .beq d => Sys2Proof.Machine.execBeq d s
  | .sbcIndY z => Sys2Proof.Machine.execSbcIndY z s
  | .jamF2 => Sys2Proof.Machine.execJamF2 s
  | .iscIndY z => Sys2Proof.Machine.execIscIndY z s
  | .nopZpXF4 z => Sys2Proof.Machine.execNopZpXF4 z s
  | .sbcZpX z => Sys2Proof.Machine.execSbcZpX z s
  | .incZpX z => Sys2Proof.Machine.execIncZpX z s
  | .iscZpX z => Sys2Proof.Machine.execIscZpX z s
  | .sed => Sys2Proof.Machine.execSed s
  | .sbcAbsY a => Sys2Proof.Machine.execSbcAbsY a s
  | .nopFA => Sys2Proof.Machine.execNopFA s
  | .iscAbsY a => Sys2Proof.Machine.execIscAbsY a s
  | .nopAbsXFC a => Sys2Proof.Machine.execNopAbsXFC a s
  | .sbcAbsX a => Sys2Proof.Machine.execSbcAbsX a s
  | .incAbsX a => Sys2Proof.Machine.execIncAbsX a s
  | .iscAbsX a => Sys2Proof.Machine.execIscAbsX a s

end Sys2Proof.Machine
end

