-- ==== Sys2Proof/Machine/Schedule.lean ====
section
/-! DEFINITION. The scheduler (spec/63_io_and_scheduler.md section 3): one turn of the loop of rule R482, with the
host's actions (rule R488), the interrupt poll (spec/60_exceptions.md rule R303), one instruction, and the PPU dots
drained after each action (rule R484); and the trace sample (rule R490). -/

namespace Sys2Proof.Machine

/-! ### The host (rules R476, R486, R488) -/

/-- What the host does at this boundary, and the machine with that turn taken off the list. -/
def State.takeTurn (s : State) : HostTurn × State :=
  match s.host with
  | [] => ({}, s)
  | h :: rest => (h, { s with host := rest })

/-- A host write of a controller's latched buttons (rule R476). -/
def Controller.setButtons (b : Option Byte) (c : Controller) : Controller :=
  match b with
  | some v => { c with buttons := v }
  | none => c

/-- The host's writes: buttons, and the frame hand-off, which clears `frame_ready` (rule R486). The copy of the
framebuffer leaves the machine and is no state of it. -/
def applyHost (h : HostTurn) (s : State) : State :=
  { s with
    ctl0 := s.ctl0.setButtons h.buttons0
    ctl1 := s.ctl1.setButtons h.buttons1
    ppu := { s.ppu with frameReady := s.ppu.frameReady && !h.takeFrame } }

/-! ### The poll (rules R303, R304) -/

/-- The IRQ is asserted and not masked (rules R26, R33). -/
def State.irqTaken (s : State) : Bool := s.mapper.irqPending && !s.cpu.get .I

/-- `Poll()`: the machine after the interrupt entry it takes, or none. NMI comes before IRQ; taking the NMI is its
acknowledgement, taking the IRQ leaves the line as it is (rule R311). -/
def poll (s : State) : Option State :=
  if s.nmiPending then some (interruptEntry nmiVector { s with nmiPending := false })
  else if s.irqTaken then some (interruptEntry irqVector s)
  else none

/-! ### One turn -/

/-- `Drain(cost)` for the cost charged since `cyc` was `c0` (rules R482, R484). -/
def settle (c0 : Nat) (s : State) : State := s.drain (s.cyc - c0)

/-- Fetch and execute one instruction, then drain its cost. -/
def stepInstr (s : State) : Result :=
  let (i, t) := fetchInstr s
  match exec i t with
  | .next u => .next (settle s.cyc u)
  | .fault f => .fault f
  | .refused r => .refused r

/-- The turn's action, once the host has acted: a reset, which skips the poll (rule R304), an interrupt entry, or
an instruction. -/
def act (reset : Bool) (s : State) : Result :=
  if reset then .next (settle s.cyc (resetSequence s))
  else
    match poll s with
    | some t => .next (settle s.cyc t)
    | none => stepInstr s

/-- One turn of the loop of rule R482. Where the host stops there is no next state (rule R489). -/
def turn (s : State) : Result :=
  let (h, s) := s.takeTurn
  if h.stop then .refused .hostStopped else act h.reset (applyHost h s)

/-! ### The trace sample (rules R318, R490) -/

/-- The quantities of a trace line. -/
structure TraceSample where
  pc : Addr
  bytes : List Byte
  a : Byte
  x : Byte
  y : Byte
  p : Byte
  sp : Byte
  scanline : Nat
  dot : Nat
  cyc : Nat
  deriving DecidableEq, Repr

/-- The instruction bytes at PC, read without side effects. -/
def peekInstrBytes (s : State) : List Byte :=
  (List.range (decodeRow (busPeek s s.cpu.pc)).mode.bytes).map fun k => busPeek s (s.cpu.pc + BitVec.ofNat 16 k)

/-- The sample of the instruction about to execute. -/
def traceSample (s : State) : TraceSample :=
  { pc := s.cpu.pc, bytes := peekInstrBytes s, a := s.cpu.a, x := s.cpu.x, y := s.cpu.y, p := s.cpu.p, sp := s.cpu.sp,
    scanline := s.ppu.scanline, dot := s.ppu.dot, cyc := s.cyc }

/-- The trace line of a turn: none where the host stops or resets or an interrupt is taken. -/
def traceLine (s : State) : Option TraceSample :=
  let (h, s) := s.takeTurn
  let s := applyHost h s
  if h.stop || h.reset || (poll s).isSome then none else some (traceSample s)

end Sys2Proof.Machine
end

