-- ==== Sys2Proof/WellFormed.lean ====
section
/-! DEFINITION. Well-formedness: the canonical form of a memory, the construction check of the cartridge
(spec/62_mapper.md rules R420, R421), and the form of an instruction. Every operand field of `Instr` has exactly
the width of its operand bytes and no encoding is reserved (spec/30_encoding.md rules R102, R103), so the one
thing left to check of an instruction is that its operand has the format its table row gives. -/

namespace Sys2Proof

/-! ### Memories -/

/-- Every index of `m` is at least `lo` and below `size`, indices strictly rise, and no entry is blank. -/
def Memory.wfFrom (size : Nat) : Nat → Memory → Bool
  | _, [] => true
  | lo, (i, v) :: m => decide (lo ≤ i) && decide (i < size) && (v != Memory.blank) && Memory.wfFrom size (i + 1) m

/-- The canonical form of a memory of `size` bytes: equal memories are equal lists. -/
def Memory.wf (size : Nat) (m : Memory) : Bool := m.wfFrom size 0

/-! ### Instructions -/

/-- The operand has the format that the opcode's table row gives. -/
def Instr.wf (i : Instr) : Bool := i.operand.mode == i.row.mode

/-- A byte list is exactly one instruction: it decodes, and nothing is left over. -/
def wfBytes (l : List Byte) : Bool :=
  match decode l with
  | .ok (_, []) => true
  | _ => false

/-! ### The cartridge (rule R421) -/

/-- The board a mapper id names; every other id is unsupported (rule R420). -/
def boardOf : Nat → Option Board
  | 0 => some .nrom
  | 1 => some .mmc1
  | 4 => some .mmc3
  | _ => none

/-- The accepted numbers of 16KB PRG units. -/
def Board.prgUnits : Board → List Nat
  | .nrom => [1, 2]
  | .mmc1 => [1, 2, 4, 8, 16]
  | .mmc3 => [1, 2, 4, 8, 16, 32]

/-- The accepted numbers of 8KB CHR units; 0 means 8KB of CHR RAM. -/
def Board.chrUnits : Board → List Nat
  | .nrom => [0, 1]
  | .mmc1 => [0, 1, 2, 4, 8, 16]
  | .mmc3 => [0, 1, 2, 4, 8, 16, 32]

/-- The check of `Construct` (rules R420, R421): the board, or the load error. Both lengths must be exact
multiples of their unit, and the image must list no byte beyond its length. -/
def CartImage.check (c : CartImage) : Except LoadError Board :=
  match boardOf c.mapperId with
  | none => .error (.unsupportedMapper c.mapperId)
  | some b =>
    if c.prgLen % 16384 = 0 ∧ b.prgUnits.contains (c.prgLen / 16384) ∧
        c.chrLen % 8192 = 0 ∧ b.chrUnits.contains (c.chrLen / 8192) ∧
        c.prg.wf c.prgLen ∧ c.chr.wf c.chrLen then .ok b
    else .error .malformedRom

end Sys2Proof
end

