-- ==== Sys2Proof/Machine/Power.lean ====
section
/-! DEFINITION. Construction and power-on (spec/62_mapper.md rule R420, spec/63_io_and_scheduler.md rule R481,
spec/70_reset_and_hazards.md rule R502), for any configuration; and placing a byte of a program where the CPU will
fetch it, as the loader that hands over a cartridge image or a debugger would. -/

namespace Sys2Proof.Machine

/-- The cartridge of a validated image (rule R422). -/
def cartOf (cfg : Cfg) : Cart :=
  { prgUnits := cfg.cart.prgLen / 16384
    prg := cfg.cart.prg
    chrUnits := cfg.cart.chrLen / 8192
    chr := if cfg.cart.chrLen = 0 then Memory.ofCells 8192 cfg.chrramInit else cfg.cart.chr
    prgram := Memory.ofCells 8192 cfg.prgramInit
    mirroring := cfg.cart.mirroring }

/-- The power-on column of rules R50 and R51 for a board; palette entries hold 6 bits (rule R341). -/
def powerOnColumn (cfg : Cfg) (b : Board) : State :=
  { cpu := { a := 0x00#8, x := 0x00#8, y := 0x00#8, sp := 0x00#8, p := 0x20#8, pc := 0x0000#16 }
    nmiPending := false
    busLast := 0x00#8
    cyc := 0
    ram := Memory.ofCells 2048 cfg.ramInit
    ppu := Ppu.powerOn (Memory.ofCells 4096 cfg.vramInit) (Memory.ofCells 256 cfg.oamInit)
      (Memory.ofCells 32 (cfg.paletteInit.map fun c => (c.1, c.2 &&& 0x3F#8)))
    cart := cartOf cfg
    mapper := mapperPowerOn cfg.cart.mirroring b
    ctl0 := Controller.powerOn
    ctl1 := Controller.powerOn
    params := cfg.params
    host := [] }

/-- `Construct(cfg.cart)` (rule R420), giving the machine with every field at its power-on value, or the error. -/
def construct (cfg : Cfg) : Except LoadError State :=
  match cfg.cart.check with
  | .ok b => .ok (powerOnColumn cfg b)
  | .error e => .error e

/-- `PowerOn(cfg)` (rules R481, R502): construct, then one reset sequence with its 21 dots. -/
def powerOn (cfg : Cfg) : Except LoadError State :=
  match construct cfg with
  | .ok s => .ok (settle s.cyc (resetSequence s))
  | .error e => .error e

/-! ### Placing a program byte -/

/-- A CPU read of `a` returns a stored byte: RAM, readable PRG RAM, or PRG ROM. -/
def loadable (s : State) (a : Addr) : Bool :=
  decide (a.toNat < 0x2000) || decide (0x8000 ≤ a.toNat) || (decide (0x6000 ≤ a.toNat) && s.mapper.ramReadable)

/-- Store `v` where a CPU read of `a` will find it, from outside the machine. -/
def loadByte (a : Addr) (v : Byte) (s : State) : State :=
  if a.toNat < 0x2000 then { s with ram := s.ram.write (ramIndex a) v }
  else if a.toNat < 0x8000 then { s with cart := { s.cart with prgram := s.cart.prgram.write (a.toNat - 0x6000) v } }
  else { s with cart := { s.cart with prg := s.cart.prg.write (prgOffset s.cart s.mapper a) v } }

/-- The IRQ line withdrawn, as a write to MMC3's $E000 does (rule R460), with nothing else changed. -/
def Mapper.withdrawIrq : Mapper → Mapper
  | .mmc3 r => .mmc3 { r with irqPending := false }
  | m => m

/-- Where a program's first byte is placed: at PC if all three addresses from PC on are loadable, else at $0200. -/
def loadAddr (s : State) : Addr :=
  if loadable s s.cpu.pc && loadable s (s.cpu.pc + 1#16) && loadable s (s.cpu.pc + 2#16) then s.cpu.pc else 0x0200#16

/-- Three bytes placed where the next step fetches, with nothing standing before the fetch: no host action, no
interrupt to take. -/
def placeProgram (b0 b1 b2 : Byte) (s : State) : State :=
  let a := loadAddr s
  let s := loadByte (a + 2#16) b2 (loadByte (a + 1#16) b1 (loadByte a b0 s))
  { s with cpu := { s.cpu with pc := a }, nmiPending := false, mapper := s.mapper.withdrawIrq, host := [] }

end Sys2Proof.Machine
end

