-- ==== Sys2Proof/Machine/Step.lean ====
section
/-! DEFINITION. The step function: one turn of the scheduler's loop (spec/63_io_and_scheduler.md rule R482), and
where an instruction word is placed for the next step to run it (log entry 8). -/

namespace Sys2Proof.Machine

/-- One step of the machine: one turn of the loop. -/
def step (s : State) : Host.Outcome State Fault Refusal := turn s

/-- The instruction whose bits are `w` (bit 0 the least significant bit of the first byte, every bit at or above
`nbits` zero), placed for the very next step. -/
def State.withFetchWord (s : State) (nbits w : Nat) : State :=
  placeProgram (tableByte (w % 2 ^ nbits) 0) (tableByte (w % 2 ^ nbits) 1) (tableByte (w % 2 ^ nbits) 2) s

end Sys2Proof.Machine
end

