-- ==== Sys2Proof/Safety.lean ====
section
/-! DEFINITION. The terms claims use: the conditions under which a step runs an instruction, what a safe run is, the
invariants of the machine, and the results of spec/43 to 47 written as arithmetic on numbers and bit masks,
independently of the flag operations of Machine/Flags.lean. -/

namespace Sys2Proof.Machine

/-! ### Runs -/

/-- Neither the host nor an interrupt stands before the next instruction (rules R303, R482). -/
def State.quiet (s : State) : Bool := s.host.isEmpty && !s.nmiPending && !s.irqTaken

/-- The host stops at none of the boundaries to come. -/
def State.hostNeverStops (s : State) : Bool := s.host.all fun h => !h.stop

/-- What a step does with the outcome of a meaning: drain the cost charged since `cyc` was `c0` (rule R484). -/
def settled (c0 : Nat) : Result → Result
  | .next u => .next (u.drain (u.cyc - c0))
  | .fault f => .fault f
  | .refused r => .refused r

/-- The next `n` bytes at PC as `Fetch8` reads them, in order, and the machine afterwards (rule R16). -/
def fetchBytes : Nat → State → List Byte × State
  | 0, s => ([], s)
  | n + 1, s => ((fetch8 s).1 :: (fetchBytes n (fetch8 s).2).1, (fetchBytes n (fetch8 s).2).2)

/-- The states a machine passes through from `s`. -/
inductive Reachable (s : State) : State → Prop where
  | start : Reachable s s
  | step {t u : State} : Reachable s t → Sys2Proof.Machine.step t = .next u → Reachable s u

/-- A safe run: from `s` on, every step answers a next state ("There is no fault, no stuck state and no refusal at run
time", rule R9). -/
def Safe (s : State) : Prop := ∀ t, Reachable s t → ∃ u, Sys2Proof.Machine.step t = .next u

/-! ### Invariants -/

/-- Break reads 0 and Unused reads 1 in the register (rule R28). -/
def State.statusWf (s : State) : Prop := getFlag s.cpu.p .B = false ∧ getFlag s.cpu.p .U = true

/-- `ppu.ticks = 3 * cyc` (rule R484). -/
def State.clockWf (s : State) : Prop := s.ppu.ticks = 3 * s.cyc

/-- The PPU's position is on the grid and is what its ticks say (rules R345, R364). -/
def State.positionWf (s : State) : Prop :=
  s.ppu.scanline < 262 ∧ s.ppu.dot < 341 ∧
    89342 * s.ppu.frame + 341 * s.ppu.scanline + s.ppu.dot = s.ppu.ticks

/-- Every memory is in canonical form and within its size (rules R37, R341, R345, R422). -/
def State.memoryWf (s : State) : Prop :=
  s.ram.wf 2048 = true ∧ s.ppu.vram.wf 4096 = true ∧ s.ppu.oam.wf 256 = true ∧ s.ppu.palette.wf 32 = true ∧
    s.ppu.framebuffer.wf 61440 = true ∧ s.cart.prgram.wf 8192 = true ∧ s.cart.prg.wf s.cart.prgLen = true ∧
    s.cart.chr.wf s.cart.chrLen = true

/-- Palette entries and framebuffer cells hold 6 bits (rules R341, R345). -/
def State.colourWf (s : State) : Prop :=
  ∀ i, (s.ppu.palette.read i).toNat < 64 ∧ (s.ppu.framebuffer.read i).toNat < 64

/-- Both strobes are written together (rule R472); the sprite counts are at most 8 (rule R345). -/
def State.deviceWf (s : State) : Prop :=
  s.ctl0.strobe = s.ctl1.strobe ∧ s.ppu.secCount ≤ 8 ∧ s.ppu.spriteCount ≤ 8

/-- MMC1 has loaded at most four bits (rule R440); MMC3's A12 last fell no later than now (rule R450). -/
def State.mapperWf (s : State) : Prop :=
  match s.mapper with
  | .nrom => True
  | .mmc1 r => r.cnt ≤ 4
  | .mmc3 r => r.a12LowSince ≤ s.ppu.ticks

/-! ### Results, as numbers and masks -/

/-- P with Z and N set from a result byte and the other bits kept (rule R15). -/
def withNZ (v p : Byte) : Byte := (p &&& 0x7D#8) ||| (if v = 0#8 then 0x02#8 else 0#8) ||| (v &&& 0x80#8)

/-- P with C replaced. -/
def withC (c : Bool) (p : Byte) : Byte := (p &&& 0xFE#8) ||| (if c then 0x01#8 else 0#8)

/-- P with V replaced. -/
def withV (v : Bool) (p : Byte) : Byte := (p &&& 0xBF#8) ||| (if v then 0x40#8 else 0#8)

/-- The carry as a number. -/
def carryIn (p : Byte) : Nat := p.toNat % 2

/-- `A + m + C`: the byte, the unsigned carry and the signed overflow (rules R189, R190). -/
def addSpec (m : Byte) (c : Cpu) : Cpu :=
  let u := c.a.toNat + m.toNat + carryIn c.p
  let i := c.a.toInt + m.toInt + (carryIn c.p : Int)
  let r := BitVec.ofNat 8 u
  { c with a := r, p := withNZ r (withC (decide (256 ≤ u)) (withV (decide (i < -128 ∨ 127 < i)) c.p)) }

/-- `A - m - (1 - C)`: the byte, the inverse of the unsigned borrow and the signed overflow (rules R185, R189). -/
def subSpec (m : Byte) (c : Cpu) : Cpu :=
  let b := 1 - carryIn c.p
  let i := c.a.toInt - m.toInt - (b : Int)
  let r := BitVec.ofInt 8 i
  { c with a := r,
           p := withNZ r (withC (decide (m.toNat + b ≤ c.a.toNat)) (withV (decide (i < -128 ∨ 127 < i)) c.p)) }

/-- C is "no borrow", Z equality, N bit 7 of the difference (rule R191). -/
def compareSpec (r m : Byte) (c : Cpu) : Cpu :=
  { c with p := withC (decide (m.toNat ≤ r.toNat)) (withNZ (BitVec.ofInt 8 ((r.toNat : Int) - m.toNat)) c.p) }

/-- BIT (rule R183): Z from `A & m`, N and V copied from bits 7 and 6 of m. -/
def bitSpec (m : Byte) (c : Cpu) : Cpu :=
  { c with p := (c.p &&& 0x3D#8) ||| (if c.a &&& m = 0#8 then 0x02#8 else 0#8) ||| (m &&& 0xC0#8) }

/-! The byte that an increment, decrement, shift or rotate gives for `m`, and the carry it leaves, as arithmetic on
numbers. INC and DEC leave the carry of `p` as it is. -/

/-- INC (rule R200). -/
def incSpec (m p : Byte) : Byte × Bool := (BitVec.ofNat 8 (m.toNat + 1), p.getLsbD 0)
/-- DEC (rule R201). -/
def decSpec (m p : Byte) : Byte × Bool := (BitVec.ofNat 8 (m.toNat + 255), p.getLsbD 0)
/-- ASL (rule R206): bit 7 goes to C. -/
def aslSpec (m _p : Byte) : Byte × Bool := (BitVec.ofNat 8 (2 * m.toNat), decide (128 ≤ m.toNat))
/-- LSR (rule R207): bit 0 goes to C. -/
def lsrSpec (m _p : Byte) : Byte × Bool := (BitVec.ofNat 8 (m.toNat / 2), decide (m.toNat % 2 = 1))
/-- ROL (rule R208): the 9-bit number C:m rotated left. -/
def rolSpec (m p : Byte) : Byte × Bool := (BitVec.ofNat 8 (2 * m.toNat + carryIn p), decide (128 ≤ m.toNat))
/-- ROR (rule R209). -/
def rorSpec (m p : Byte) : Byte × Bool := (BitVec.ofNat 8 (m.toNat / 2 + 128 * carryIn p), decide (m.toNat % 2 = 1))

/-- `A <- r; SetNZ(A)`. -/
def loadASpec (r : Byte) (c : Cpu) : Cpu := { c with a := r, p := withNZ r c.p }

/-! ### The opcode table by mnemonic (rule R106) -/

/-- One entry of rule R106: opcode, addressing mode, baseline cycles, and whether it carries the `+`. -/
structure Form where
  opcode : Byte
  mode : Mode
  cycles : Nat
  adder : Bool
  deriving DecidableEq, Repr

/-- The forms of the instruction that rule R<n> gives the semantics of, as rule R106 lists them under that rule. -/
def formsOfRule : Nat → List Form
  -- LDA
  | 150 => [⟨0xA1#8, .indirectX, 6, false⟩, ⟨0xA5#8, .zeropage, 3, false⟩, ⟨0xA9#8, .immediate, 2, false⟩,
    ⟨0xAD#8, .absolute, 4, false⟩, ⟨0xB1#8, .indirectY, 5, true⟩, ⟨0xB5#8, .zeropageX, 4, false⟩,
    ⟨0xB9#8, .absoluteY, 4, true⟩, ⟨0xBD#8, .absoluteX, 4, true⟩]
  -- LDX
  | 151 => [⟨0xA2#8, .immediate, 2, false⟩, ⟨0xA6#8, .zeropage, 3, false⟩, ⟨0xAE#8, .absolute, 4, false⟩,
    ⟨0xB6#8, .zeropageY, 4, false⟩, ⟨0xBE#8, .absoluteY, 4, true⟩]
  -- LDY
  | 152 => [⟨0xA0#8, .immediate, 2, false⟩, ⟨0xA4#8, .zeropage, 3, false⟩, ⟨0xAC#8, .absolute, 4, false⟩,
    ⟨0xB4#8, .zeropageX, 4, false⟩, ⟨0xBC#8, .absoluteX, 4, true⟩]
  -- STA
  | 153 => [⟨0x81#8, .indirectX, 6, false⟩, ⟨0x85#8, .zeropage, 3, false⟩, ⟨0x8D#8, .absolute, 4, false⟩,
    ⟨0x91#8, .indirectY, 6, false⟩, ⟨0x95#8, .zeropageX, 4, false⟩, ⟨0x99#8, .absoluteY, 5, false⟩,
    ⟨0x9D#8, .absoluteX, 5, false⟩]
  -- STX
  | 154 => [⟨0x86#8, .zeropage, 3, false⟩, ⟨0x8E#8, .absolute, 4, false⟩, ⟨0x96#8, .zeropageY, 4, false⟩]
  -- STY
  | 155 => [⟨0x84#8, .zeropage, 3, false⟩, ⟨0x8C#8, .absolute, 4, false⟩, ⟨0x94#8, .zeropageX, 4, false⟩]
  -- TAX
  | 156 => [⟨0xAA#8, .implied, 2, false⟩]
  -- TAY
  | 157 => [⟨0xA8#8, .implied, 2, false⟩]
  -- TXA
  | 158 => [⟨0x8A#8, .implied, 2, false⟩]
  -- TYA
  | 159 => [⟨0x98#8, .implied, 2, false⟩]
  -- TSX
  | 160 => [⟨0xBA#8, .implied, 2, false⟩]
  -- TXS
  | 161 => [⟨0x9A#8, .implied, 2, false⟩]
  -- PHA
  | 170 => [⟨0x48#8, .implied, 3, false⟩]
  -- PHP
  | 171 => [⟨0x08#8, .implied, 3, false⟩]
  -- PLA
  | 172 => [⟨0x68#8, .implied, 4, false⟩]
  -- PLP
  | 173 => [⟨0x28#8, .implied, 4, false⟩]
  -- AND
  | 180 => [⟨0x21#8, .indirectX, 6, false⟩, ⟨0x25#8, .zeropage, 3, false⟩, ⟨0x29#8, .immediate, 2, false⟩,
    ⟨0x2D#8, .absolute, 4, false⟩, ⟨0x31#8, .indirectY, 5, true⟩, ⟨0x35#8, .zeropageX, 4, false⟩,
    ⟨0x39#8, .absoluteY, 4, true⟩, ⟨0x3D#8, .absoluteX, 4, true⟩]
  -- ORA
  | 181 => [⟨0x01#8, .indirectX, 6, false⟩, ⟨0x05#8, .zeropage, 3, false⟩, ⟨0x09#8, .immediate, 2, false⟩,
    ⟨0x0D#8, .absolute, 4, false⟩, ⟨0x11#8, .indirectY, 5, true⟩, ⟨0x15#8, .zeropageX, 4, false⟩,
    ⟨0x19#8, .absoluteY, 4, true⟩, ⟨0x1D#8, .absoluteX, 4, true⟩]
  -- EOR
  | 182 => [⟨0x41#8, .indirectX, 6, false⟩, ⟨0x45#8, .zeropage, 3, false⟩, ⟨0x49#8, .immediate, 2, false⟩,
    ⟨0x4D#8, .absolute, 4, false⟩, ⟨0x51#8, .indirectY, 5, true⟩, ⟨0x55#8, .zeropageX, 4, false⟩,
    ⟨0x59#8, .absoluteY, 4, true⟩, ⟨0x5D#8, .absoluteX, 4, true⟩]
  -- BIT
  | 183 => [⟨0x24#8, .zeropage, 3, false⟩, ⟨0x2C#8, .absolute, 4, false⟩]
  -- ADC
  | 184 => [⟨0x61#8, .indirectX, 6, false⟩, ⟨0x65#8, .zeropage, 3, false⟩, ⟨0x69#8, .immediate, 2, false⟩,
    ⟨0x6D#8, .absolute, 4, false⟩, ⟨0x71#8, .indirectY, 5, true⟩, ⟨0x75#8, .zeropageX, 4, false⟩,
    ⟨0x79#8, .absoluteY, 4, true⟩, ⟨0x7D#8, .absoluteX, 4, true⟩]
  -- SBC
  | 185 => [⟨0xE1#8, .indirectX, 6, false⟩, ⟨0xE5#8, .zeropage, 3, false⟩, ⟨0xE9#8, .immediate, 2, false⟩,
    ⟨0xED#8, .absolute, 4, false⟩, ⟨0xF1#8, .indirectY, 5, true⟩, ⟨0xF5#8, .zeropageX, 4, false⟩,
    ⟨0xF9#8, .absoluteY, 4, true⟩, ⟨0xFD#8, .absoluteX, 4, true⟩]
  -- CMP
  | 186 => [⟨0xC1#8, .indirectX, 6, false⟩, ⟨0xC5#8, .zeropage, 3, false⟩, ⟨0xC9#8, .immediate, 2, false⟩,
    ⟨0xCD#8, .absolute, 4, false⟩, ⟨0xD1#8, .indirectY, 5, true⟩, ⟨0xD5#8, .zeropageX, 4, false⟩,
    ⟨0xD9#8, .absoluteY, 4, true⟩, ⟨0xDD#8, .absoluteX, 4, true⟩]
  -- CPX
  | 187 => [⟨0xE0#8, .immediate, 2, false⟩, ⟨0xE4#8, .zeropage, 3, false⟩, ⟨0xEC#8, .absolute, 4, false⟩]
  -- CPY
  | 188 => [⟨0xC0#8, .immediate, 2, false⟩, ⟨0xC4#8, .zeropage, 3, false⟩, ⟨0xCC#8, .absolute, 4, false⟩]
  -- INC
  | 200 => [⟨0xE6#8, .zeropage, 5, false⟩, ⟨0xEE#8, .absolute, 6, false⟩, ⟨0xF6#8, .zeropageX, 6, false⟩,
    ⟨0xFE#8, .absoluteX, 7, false⟩]
  -- DEC
  | 201 => [⟨0xC6#8, .zeropage, 5, false⟩, ⟨0xCE#8, .absolute, 6, false⟩, ⟨0xD6#8, .zeropageX, 6, false⟩,
    ⟨0xDE#8, .absoluteX, 7, false⟩]
  -- INX
  | 202 => [⟨0xE8#8, .implied, 2, false⟩]
  -- INY
  | 203 => [⟨0xC8#8, .implied, 2, false⟩]
  -- DEX
  | 204 => [⟨0xCA#8, .implied, 2, false⟩]
  -- DEY
  | 205 => [⟨0x88#8, .implied, 2, false⟩]
  -- ASL
  | 206 => [⟨0x06#8, .zeropage, 5, false⟩, ⟨0x0A#8, .accumulator, 2, false⟩, ⟨0x0E#8, .absolute, 6, false⟩,
    ⟨0x16#8, .zeropageX, 6, false⟩, ⟨0x1E#8, .absoluteX, 7, false⟩]
  -- LSR
  | 207 => [⟨0x46#8, .zeropage, 5, false⟩, ⟨0x4A#8, .accumulator, 2, false⟩, ⟨0x4E#8, .absolute, 6, false⟩,
    ⟨0x56#8, .zeropageX, 6, false⟩, ⟨0x5E#8, .absoluteX, 7, false⟩]
  -- ROL
  | 208 => [⟨0x26#8, .zeropage, 5, false⟩, ⟨0x2A#8, .accumulator, 2, false⟩, ⟨0x2E#8, .absolute, 6, false⟩,
    ⟨0x36#8, .zeropageX, 6, false⟩, ⟨0x3E#8, .absoluteX, 7, false⟩]
  -- ROR
  | 209 => [⟨0x66#8, .zeropage, 5, false⟩, ⟨0x6A#8, .accumulator, 2, false⟩, ⟨0x6E#8, .absolute, 6, false⟩,
    ⟨0x76#8, .zeropageX, 6, false⟩, ⟨0x7E#8, .absoluteX, 7, false⟩]
  -- JMP
  | 220 => [⟨0x4C#8, .absolute, 3, false⟩]
  -- JMP
  | 221 => [⟨0x6C#8, .indirect, 5, false⟩]
  -- JSR
  | 222 => [⟨0x20#8, .absolute, 6, false⟩]
  -- RTS
  | 223 => [⟨0x60#8, .implied, 6, false⟩]
  -- BCC
  | 225 => [⟨0x90#8, .relative, 2, false⟩]
  -- BCS
  | 226 => [⟨0xB0#8, .relative, 2, false⟩]
  -- BEQ
  | 227 => [⟨0xF0#8, .relative, 2, false⟩]
  -- BNE
  | 228 => [⟨0xD0#8, .relative, 2, false⟩]
  -- BMI
  | 229 => [⟨0x30#8, .relative, 2, false⟩]
  -- BPL
  | 230 => [⟨0x10#8, .relative, 2, false⟩]
  -- BVC
  | 231 => [⟨0x50#8, .relative, 2, false⟩]
  -- BVS
  | 232 => [⟨0x70#8, .relative, 2, false⟩]
  -- BRK
  | 235 => [⟨0x00#8, .implied, 7, false⟩]
  -- RTI
  | 236 => [⟨0x40#8, .implied, 6, false⟩]
  -- CLC
  | 240 => [⟨0x18#8, .implied, 2, false⟩]
  -- SEC
  | 241 => [⟨0x38#8, .implied, 2, false⟩]
  -- CLI
  | 242 => [⟨0x58#8, .implied, 2, false⟩]
  -- SEI
  | 243 => [⟨0x78#8, .implied, 2, false⟩]
  -- CLV
  | 244 => [⟨0xB8#8, .implied, 2, false⟩]
  -- CLD
  | 245 => [⟨0xD8#8, .implied, 2, false⟩]
  -- SED
  | 246 => [⟨0xF8#8, .implied, 2, false⟩]
  -- NOP
  | 247 => [⟨0xEA#8, .implied, 2, false⟩]
  -- NOP
  | 251 => [⟨0x1A#8, .implied, 2, false⟩, ⟨0x3A#8, .implied, 2, false⟩, ⟨0x5A#8, .implied, 2, false⟩,
    ⟨0x7A#8, .implied, 2, false⟩, ⟨0xDA#8, .implied, 2, false⟩, ⟨0xFA#8, .implied, 2, false⟩]
  -- NOP
  | 252 => [⟨0x80#8, .immediate, 2, false⟩, ⟨0x82#8, .immediate, 2, false⟩, ⟨0x89#8, .immediate, 2, false⟩,
    ⟨0xC2#8, .immediate, 2, false⟩, ⟨0xE2#8, .immediate, 2, false⟩]
  -- NOP
  | 253 => [⟨0x04#8, .zeropage, 3, false⟩, ⟨0x0C#8, .absolute, 4, false⟩, ⟨0x14#8, .zeropageX, 4, false⟩,
    ⟨0x1C#8, .absoluteX, 4, true⟩, ⟨0x34#8, .zeropageX, 4, false⟩, ⟨0x3C#8, .absoluteX, 4, true⟩,
    ⟨0x44#8, .zeropage, 3, false⟩, ⟨0x54#8, .zeropageX, 4, false⟩, ⟨0x5C#8, .absoluteX, 4, true⟩,
    ⟨0x64#8, .zeropage, 3, false⟩, ⟨0x74#8, .zeropageX, 4, false⟩, ⟨0x7C#8, .absoluteX, 4, true⟩,
    ⟨0xD4#8, .zeropageX, 4, false⟩, ⟨0xDC#8, .absoluteX, 4, true⟩, ⟨0xF4#8, .zeropageX, 4, false⟩,
    ⟨0xFC#8, .absoluteX, 4, true⟩]
  -- LAX
  | 255 => [⟨0xA3#8, .indirectX, 6, false⟩, ⟨0xA7#8, .zeropage, 3, false⟩, ⟨0xAF#8, .absolute, 4, false⟩,
    ⟨0xB3#8, .indirectY, 5, true⟩, ⟨0xB7#8, .zeropageY, 4, false⟩, ⟨0xBF#8, .absoluteY, 4, true⟩]
  -- SAX
  | 256 => [⟨0x83#8, .indirectX, 6, false⟩, ⟨0x87#8, .zeropage, 3, false⟩, ⟨0x8F#8, .absolute, 4, false⟩,
    ⟨0x97#8, .zeropageY, 4, false⟩]
  -- SBC
  | 257 => [⟨0xEB#8, .immediate, 2, false⟩]
  -- DCP
  | 258 => [⟨0xC3#8, .indirectX, 8, false⟩, ⟨0xC7#8, .zeropage, 5, false⟩, ⟨0xCF#8, .absolute, 6, false⟩,
    ⟨0xD3#8, .indirectY, 8, false⟩, ⟨0xD7#8, .zeropageX, 6, false⟩, ⟨0xDB#8, .absoluteY, 7, false⟩,
    ⟨0xDF#8, .absoluteX, 7, false⟩]
  -- ISC
  | 259 => [⟨0xE3#8, .indirectX, 8, false⟩, ⟨0xE7#8, .zeropage, 5, false⟩, ⟨0xEF#8, .absolute, 6, false⟩,
    ⟨0xF3#8, .indirectY, 8, false⟩, ⟨0xF7#8, .zeropageX, 6, false⟩, ⟨0xFB#8, .absoluteY, 7, false⟩,
    ⟨0xFF#8, .absoluteX, 7, false⟩]
  -- SLO
  | 260 => [⟨0x03#8, .indirectX, 8, false⟩, ⟨0x07#8, .zeropage, 5, false⟩, ⟨0x0F#8, .absolute, 6, false⟩,
    ⟨0x13#8, .indirectY, 8, false⟩, ⟨0x17#8, .zeropageX, 6, false⟩, ⟨0x1B#8, .absoluteY, 7, false⟩,
    ⟨0x1F#8, .absoluteX, 7, false⟩]
  -- RLA
  | 261 => [⟨0x23#8, .indirectX, 8, false⟩, ⟨0x27#8, .zeropage, 5, false⟩, ⟨0x2F#8, .absolute, 6, false⟩,
    ⟨0x33#8, .indirectY, 8, false⟩, ⟨0x37#8, .zeropageX, 6, false⟩, ⟨0x3B#8, .absoluteY, 7, false⟩,
    ⟨0x3F#8, .absoluteX, 7, false⟩]
  -- SRE
  | 262 => [⟨0x43#8, .indirectX, 8, false⟩, ⟨0x47#8, .zeropage, 5, false⟩, ⟨0x4F#8, .absolute, 6, false⟩,
    ⟨0x53#8, .indirectY, 8, false⟩, ⟨0x57#8, .zeropageX, 6, false⟩, ⟨0x5B#8, .absoluteY, 7, false⟩,
    ⟨0x5F#8, .absoluteX, 7, false⟩]
  -- RRA
  | 263 => [⟨0x63#8, .indirectX, 8, false⟩, ⟨0x67#8, .zeropage, 5, false⟩, ⟨0x6F#8, .absolute, 6, false⟩,
    ⟨0x73#8, .indirectY, 8, false⟩, ⟨0x77#8, .zeropageX, 6, false⟩, ⟨0x7B#8, .absoluteY, 7, false⟩,
    ⟨0x7F#8, .absoluteX, 7, false⟩]
  -- ANC
  | 264 => [⟨0x0B#8, .immediate, 2, false⟩, ⟨0x2B#8, .immediate, 2, false⟩]
  -- ALR
  | 265 => [⟨0x4B#8, .immediate, 2, false⟩]
  -- ARR
  | 266 => [⟨0x6B#8, .immediate, 2, false⟩]
  -- AXS
  | 267 => [⟨0xCB#8, .immediate, 2, false⟩]
  -- XAA
  | 271 => [⟨0x8B#8, .immediate, 2, false⟩]
  -- LXA
  | 272 => [⟨0xAB#8, .immediate, 2, false⟩]
  -- SHA
  | 273 => [⟨0x93#8, .indirectY, 6, false⟩, ⟨0x9F#8, .absoluteY, 5, false⟩]
  -- SHY
  | 274 => [⟨0x9C#8, .absoluteX, 5, false⟩]
  -- SHX
  | 275 => [⟨0x9E#8, .absoluteY, 5, false⟩]
  -- TAS
  | 276 => [⟨0x9B#8, .absoluteY, 5, false⟩]
  -- LAS
  | 277 => [⟨0xBB#8, .absoluteY, 4, false⟩]
  -- JAM
  | 278 => [⟨0x02#8, .implied, 2, false⟩, ⟨0x12#8, .implied, 2, false⟩, ⟨0x22#8, .implied, 2, false⟩,
    ⟨0x32#8, .implied, 2, false⟩, ⟨0x42#8, .implied, 2, false⟩, ⟨0x52#8, .implied, 2, false⟩,
    ⟨0x62#8, .implied, 2, false⟩, ⟨0x72#8, .implied, 2, false⟩, ⟨0x92#8, .implied, 2, false⟩,
    ⟨0xB2#8, .implied, 2, false⟩, ⟨0xD2#8, .implied, 2, false⟩, ⟨0xF2#8, .implied, 2, false⟩]
  | _ => []

/-- The mnemonic under which rule R106 lists the forms whose semantics rule R<n> gives. -/
def mnemonicOfRule : Nat → Option Mnemonic
  | 150 => some .LDA
  | 151 => some .LDX
  | 152 => some .LDY
  | 153 => some .STA
  | 154 => some .STX
  | 155 => some .STY
  | 156 => some .TAX
  | 157 => some .TAY
  | 158 => some .TXA
  | 159 => some .TYA
  | 160 => some .TSX
  | 161 => some .TXS
  | 170 => some .PHA
  | 171 => some .PHP
  | 172 => some .PLA
  | 173 => some .PLP
  | 180 => some .AND
  | 181 => some .ORA
  | 182 => some .EOR
  | 183 => some .BIT
  | 184 => some .ADC
  | 185 => some .SBC
  | 186 => some .CMP
  | 187 => some .CPX
  | 188 => some .CPY
  | 200 => some .INC
  | 201 => some .DEC
  | 202 => some .INX
  | 203 => some .INY
  | 204 => some .DEX
  | 205 => some .DEY
  | 206 => some .ASL
  | 207 => some .LSR
  | 208 => some .ROL
  | 209 => some .ROR
  | 220 => some .JMP
  | 221 => some .JMP
  | 222 => some .JSR
  | 223 => some .RTS
  | 225 => some .BCC
  | 226 => some .BCS
  | 227 => some .BEQ
  | 228 => some .BNE
  | 229 => some .BMI
  | 230 => some .BPL
  | 231 => some .BVC
  | 232 => some .BVS
  | 235 => some .BRK
  | 236 => some .RTI
  | 240 => some .CLC
  | 241 => some .SEC
  | 242 => some .CLI
  | 243 => some .SEI
  | 244 => some .CLV
  | 245 => some .CLD
  | 246 => some .SED
  | 247 => some .NOP
  | 251 => some .NOP
  | 252 => some .NOP
  | 253 => some .NOP
  | 255 => some .LAX
  | 256 => some .SAX
  | 257 => some .SBC
  | 258 => some .DCP
  | 259 => some .ISC
  | 260 => some .SLO
  | 261 => some .RLA
  | 262 => some .SRE
  | 263 => some .RRA
  | 264 => some .ANC
  | 265 => some .ALR
  | 266 => some .ARR
  | 267 => some .AXS
  | 271 => some .XAA
  | 272 => some .LXA
  | 273 => some .SHA
  | 274 => some .SHY
  | 275 => some .SHX
  | 276 => some .TAS
  | 277 => some .LAS
  | 278 => some .JAM
  | _ => none

/-- The class of those forms (rules R107, R250): official to R247, executed to R267, no-op to R277, JAM. -/
def classOfRule (r : Nat) : OpClass :=
  if r ≤ 247 then .official else if r ≤ 267 then .unofficialExecuted
  else if r ≤ 277 then .unofficialNoop else .unofficialJam

/-! ### What an instruction does, form by form -/

/-- The operand byte of a read-class or immediate instruction: the byte, whether the indexing crossed a page, and the
machine after the reads ("if mode = immediate then m <- Fetch8() else (ea, crossed) <- Resolve(mode); m <-
BusRead(ea)", rule R150); none for the other operands. -/
def operandByte (o : Operand) (s : State) : Option (Byte × Bool × State) :=
  match o with
  | .immediate v => some (v, false, s)
  | .mem m =>
    let (ea, t) := resolve m s
    let (v, u) := busRead ea.addr t
    some (v, ea.crossed, u)
  | _ => none

/-- Every form listed has its mode, and runs as: read the operand byte, apply `f` to the registers, cost the baseline
plus 1 where the form carries the `+` and the indexing crossed a page (rules R130, R144). -/
def ReadsAs (forms : List Form) (f : Byte → Cpu → Cpu) : Prop :=
  ∀ form ∈ forms, ∀ (i : Instr) (s : State), i.opcode = form.opcode → i.operand.mode = form.mode ∧
    ∃ v crossed t, operandByte i.operand s = some (v, crossed, t) ∧
      exec i s = .next
        { t with cpu := f v s.cpu, cyc := s.cyc + form.cycles + (if form.adder && crossed then 1 else 0) }

/-- Every form listed has its mode, and runs as: resolve the address, write the byte `f` gives, no adder (rule R130). -/
def StoresAs (forms : List Form) (f : Cpu → Byte) : Prop :=
  ∀ form ∈ forms, ∀ (i : Instr) (s : State), i.opcode = form.opcode → i.operand.mode = form.mode ∧
    ∃ m, i.operand = .mem m ∧ exec i s = .next
      ((busWrite (resolve m s).1.addr (f s.cpu) (resolve m s).2).charge form.cycles)

/-- Every memory form listed has its mode, and runs as: one read of the address, one write of the byte `op` gives for
the byte read and P, C set from `op`, then `post` on the registers with that byte; no adder (rule R130). -/
def ModifiesAs (forms : List Form) (op : Byte → Byte → Byte × Bool) (post : Byte → Cpu → Cpu) : Prop :=
  ∀ form ∈ forms, form.mode ≠ .accumulator → ∀ (i : Instr) (s : State), i.opcode = form.opcode →
    i.operand.mode = form.mode ∧
    ∃ m, i.operand = .mem m ∧
      let ea := (resolve m s).1.addr
      let b := busRead ea (resolve m s).2
      let r := op b.1 s.cpu.p
      let w := busWrite ea r.1 b.2
      exec i s = .next ({ w with cpu := post r.1 { s.cpu with p := withC r.2 s.cpu.p } }.charge form.cycles)

/-- Every form listed has its mode, and runs as: apply `f` to the registers, with no access (rules R131, R132). -/
def ActsAs (forms : List Form) (f : Cpu → Cpu) : Prop :=
  ∀ form ∈ forms, ∀ (i : Instr) (s : State), i.opcode = form.opcode → i.operand.mode = form.mode ∧
    exec i s = .next { s with cpu := f s.cpu, cyc := s.cyc + form.cycles }

/-- Every form listed is a branch on `cond` (rule R224); PC is the address of the following instruction. -/
def BranchesOn (forms : List Form) (cond : Byte → Bool) : Prop :=
  ∀ form ∈ forms, ∀ (i : Instr) (s : State), i.opcode = form.opcode →
    ∃ d, i.operand = .relative d ∧
      let target := s.cpu.pc + d.signExtend 16
      exec i s =
        if cond s.cpu.p then
          .next { s with cpu := { s.cpu with pc := target },
                         cyc := s.cyc + 3 + (if hiByte target = hiByte s.cpu.pc then 0 else 1) }
        else .next { s with cyc := s.cyc + 2 }

/-- The stack byte at stack pointer `sp`: `ram[$0100 | sp]` (rule R21). -/
def State.stackByte (s : State) (sp : Byte) : Byte := s.ram.read (256 + sp.toNat)

/-- RAM after the byte `v` is stored at `$0100 | sp` (rule R21). -/
def stackStore (sp v : Byte) (ram : Memory) : Memory := ram.write (256 + sp.toNat) v

/-- RAM after the three pushes of an exception from stack pointer `sp` (rules R235, R306): PC high, PC low, status. -/
def exceptionFrame (sp : Byte) (ret : Addr) (status : Byte) (ram : Memory) : Memory :=
  stackStore (sp - 2#8) status (stackStore (sp - 1#8) (loByte ret) (stackStore sp (hiByte ret) ram))

/-- The 16-bit value of two consecutive bytes of PRG ROM seen from `a` (rules R70, R423): a vector. -/
def State.vectorAt (s : State) (a : Addr) : Addr :=
  wordOf (s.cart.prg.read (prgOffset s.cart s.mapper (a + 1#16))) (s.cart.prg.read (prgOffset s.cart s.mapper a))

/-- The machine after `InterruptEntry(vector)` (rule R306), in full. -/
def State.entered (vector : Addr) (s : State) : State :=
  { s with
    cpu := { s.cpu with sp := s.cpu.sp - 3#8, p := s.cpu.p ||| 0x04#8, pc := s.vectorAt vector }
    ram := exceptionFrame s.cpu.sp s.cpu.pc ((s.cpu.p &&& 0xEF#8) ||| 0x20#8) s.ram
    busLast := hiByte (s.vectorAt vector)
    cyc := s.cyc + 7 }

/-! ### Memory as the CPU sees it, byte by byte -/

/-- The stored byte that CPU address `a` shows: RAM, PRG RAM (whether or not it is enabled) or PRG ROM through the
board's windows; none in the windows of the devices and where nothing is mapped (rules R61, R427). -/
def State.byteAt (s : State) (a : Addr) : Option Byte :=
  if a.toNat < 0x2000 then some (s.ram.read (a.toNat % 2048))
  else if a.toNat < 0x6000 then none
  else if a.toNat < 0x8000 then some (s.cart.prgram.read (a.toNat - 0x6000))
  else some (s.cart.prg.read (prgOffset s.cart s.mapper a))

/-- A CPU read of `a` returns a stored byte and does nothing else but drive the bus (rules R65, R73, R427): RAM, PRG RAM
while it is readable, PRG ROM. -/
def State.plainAt (s : State) (a : Addr) : Bool :=
  decide (a.toNat < 0x2000) || decide (0x8000 ≤ a.toNat) || (decide (0x6000 ≤ a.toNat) && s.mapper.ramReadable)

/-- Two addresses of one stored byte: RAM is mirrored every $0800 (rule R65). -/
def sameCell (a b : Addr) : Prop := a = b ∨ (a.toNat < 0x2000 ∧ b.toNat < 0x2000 ∧ a.toNat % 2048 = b.toNat % 2048)

/-- The mnemonics whose memory forms write their effective address: the stores, and the read-modify-write instructions
(rule R130). -/
def isStoring : Mnemonic → Bool
  | .STA | .STX | .STY | .SAX | .INC | .DEC | .ASL | .LSR | .ROL | .ROR
  | .DCP | .ISC | .SLO | .RLA | .SRE | .RRA => true
  | _ => false

/-- The mnemonics that push (rules R170, R171, R222, R235). -/
def isPushing : Mnemonic → Bool
  | .PHA | .PHP | .JSR | .BRK => true
  | _ => false

/-- The address an instruction stores to, other than the stack: the effective address of a storing form, computed as
its meaning computes it. -/
def storedTo (i : Instr) (s : State) : Option Addr :=
  match i.operand with
  | .mem m => if isStoring i.row.kind then some (resolve m s).1.addr else none
  | _ => none

/-- The condition of a branch (rules R225 to R232); false for the other mnemonics. -/
def branchTaken (k : Mnemonic) (p : Byte) : Bool :=
  match k with
  | .BCC => !p.getLsbD 0
  | .BCS => p.getLsbD 0
  | .BNE => !p.getLsbD 1
  | .BEQ => p.getLsbD 1
  | .BVC => !p.getLsbD 6
  | .BVS => p.getLsbD 6
  | .BPL => !p.getLsbD 7
  | .BMI => p.getLsbD 7
  | _ => false

/-- The cost of an instruction by the formula of rule R112, from the columns of its table row; PC is the address of the
next instruction. -/
def costOf (i : Instr) (s : State) : Nat :=
  i.row.cycles
    + (match i.operand with
       | .mem m => if i.row.pagePenalty && (resolve m s).1.crossed then 1 else 0
       | .relative d =>
         if branchTaken i.row.kind s.cpu.p then
           1 + (if hiByte (s.cpu.pc + d.signExtend 16) = hiByte s.cpu.pc then 0 else 1)
         else 0
       | _ => 0)
    + (if storedTo i s = some 0x4014#16 then 513 + (if s.cyc % 2 = 1 then 1 else 0) else 0)

/-- The machine with the Decimal flag set to `b` and nothing else changed. -/
def State.withDecimal (b : Bool) (s : State) : State := s.mapCpu (Cpu.put .D b)

/-- Apply a change of state to an outcome's next state. -/
def onNext (f : State → State) : Result → Result
  | .next t => .next (f t)
  | .fault e => .fault e
  | .refused r => .refused r

/-! ### The fields of the VRAM address (rule R343) -/

/-- Coarse X, `v[4:0]`. -/
def coarseX (v : BitVec 15) : Nat := v.toNat % 32
/-- Coarse Y, `v[9:5]`. -/
def coarseY (v : BitVec 15) : Nat := v.toNat / 32 % 32
/-- The horizontal nametable bit, `v[10]`. -/
def ntX (v : BitVec 15) : Nat := v.toNat / 1024 % 2
/-- The vertical nametable bit, `v[11]`. -/
def ntY (v : BitVec 15) : Nat := v.toNat / 2048 % 2
/-- Fine Y, `v[14:12]`. -/
def fineYOf (v : BitVec 15) : Nat := v.toNat / 4096

/-! ### One dot, as numbers (rules R365 to R386). `p` is the PPU once the position has advanced. -/

/-- Rendering is enabled on a rendering line (rules R365, R368). -/
def Ppu.renders (p : Ppu) : Prop :=
  (p.mask.getLsbD 3 || p.mask.getLsbD 4) = true ∧ (p.scanline < 240 ∨ p.scanline = 261)

/-- A dot of a visible line that outputs a pixel (rule R370). -/
abbrev Ppu.drawsPixel (p : Ppu) : Prop := p.scanline < 240 ∧ 1 ≤ p.dot ∧ p.dot ≤ 256

/-- The dots at which tiles are fetched (rule R370). -/
abbrev isTileDot (d : Nat) : Prop := (1 ≤ d ∧ d ≤ 256) ∨ (321 ≤ d ∧ d ≤ 336)

/-- The nametable address (rule R371). -/
def ntAddrOf (v : BitVec 15) : BitVec 14 := BitVec.ofNat 14 (0x2000 + v.toNat % 4096)

/-- The attribute address (rule R372). -/
def atAddrOf (v : BitVec 15) : BitVec 14 :=
  BitVec.ofNat 14 (0x23C0 + v.toNat / 1024 % 4 * 1024 + v.toNat / 128 % 8 * 8 + v.toNat / 4 % 8)

/-- The 2-bit field of an attribute byte (rule R372). -/
def atFieldOf (v : BitVec 15) (b : Byte) : BitVec 2 :=
  BitVec.ofNat 2 (b.toNat / 2 ^ (4 * (v.toNat / 64 % 2) + 2 * (v.toNat / 2 % 2)))

/-- The address of the pattern low byte (rule R373); the high byte is 8 further (rule R374). -/
def ptAddrOf (p : Ppu) : BitVec 14 :=
  BitVec.ofNat 14 ((if p.ctrl.getLsbD 4 then 0x1000 else 0) + 16 * p.ntLatch.toNat + p.v.toNat / 4096)

/-- The address the PPU drives at a dot of a rendering line, if any (rules R370, R381, R383); slot `i` is fetched at the
dots `257 + 8 i` to `264 + 8 i`. -/
def drivenAddr (p : Ppu) : Option (BitVec 14) :=
  if isTileDot p.dot then
    match p.dot % 8 with
    | 1 => some (ntAddrOf p.v)
    | 3 => some (atAddrOf p.v)
    | 5 => some (ptAddrOf p)
    | 7 => some (ptAddrOf p + 8#14)
    | _ => none
  else if 257 ≤ p.dot ∧ p.dot ≤ 320 then
    match p.dot % 8 with
    | 1 => some (ntAddrOf p.v)
    | 3 => some (ntAddrOf p.v)
    | 5 => some (spriteAddr p ((p.dot - 257) / 8))
    | 7 => some (spriteAddr p ((p.dot - 257) / 8) + 8#14)
    | _ => none
  else if p.dot = 337 ∨ p.dot = 339 then some (ntAddrOf p.v)
  else none

/-- A shifter after the shift and the reload of dot `d`; a reload brings the byte `b` (rules R370, R375, R376). -/
def shifterAt (d : Nat) (sh : BitVec 16) (b : Byte) : BitVec 16 :=
  let n := if (2 ≤ d ∧ d ≤ 257) ∨ (322 ≤ d ∧ d ≤ 337) then 2 * sh.toNat else sh.toNat
  BitVec.ofNat 16 (if d % 8 = 1 ∧ ((9 ≤ d ∧ d ≤ 257) ∨ d = 329 ∨ d = 337) then n / 256 * 256 + b.toNat else n)

/-- The byte an attribute shifter is reloaded with (rule R375). -/
def attrByte (b : Bool) : Byte := if b then 0xFF#8 else 0x00#8

/-- The background pixel of the dot, 0 where the layer is disabled or clipped, and its palette (rule R384). -/
def bgPixelAt (p : Ppu) : Nat × Nat :=
  let bit (sh : BitVec 16) (b : Byte) : Nat := (shifterAt p.dot sh b).toNat / 2 ^ (15 - p.x.toNat) % 2
  (if p.mask.getLsbD 3 && (decide (8 < p.dot) || p.mask.getLsbD 1) then
      2 * bit p.bgHi p.ptHiLatch + bit p.bgLo p.ptLoLatch
    else 0,
    2 * bit p.atHi (attrByte (p.atLatch.getLsbD 1)) + bit p.atLo (attrByte (p.atLatch.getLsbD 0)))

/-- The pixel of a slot at screen column `px`; 0 where it is transparent or not there (rule R385). -/
def slotPixelAt (e : SpriteSlot) (px : Nat) : Nat :=
  if e.x.toNat ≤ px ∧ px < e.x.toNat + 8 then
    let b := if e.attr.getLsbD 6 then px - e.x.toNat else 7 - (px - e.x.toNat)
    2 * (e.ptHi.toNat / 2 ^ b % 2) + e.ptLo.toNat / 2 ^ b % 2
  else 0

/-- The first slot in order with an opaque pixel at the dot, and its number; none where the layer is disabled or clipped
(rule R385). -/
def spriteAt (p : Ppu) : Option (SpriteSlot × Nat) :=
  if p.mask.getLsbD 4 && (decide (8 < p.dot) || p.mask.getLsbD 2) then
    (p.slots.toList.zipIdx.take p.spriteCount).find? fun e => slotPixelAt e.1 (p.dot - 1) != 0
  else none

/-- The palette entry of the dot's pixel by the priority of rule R386. -/
def paletteEntryAt (p : Ppu) : Nat :=
  let (bg, pal) := bgPixelAt p
  match spriteAt p with
  | none => if bg = 0 then 0 else 4 * pal + bg
  | some (e, _) =>
    if bg ≠ 0 ∧ e.attr.getLsbD 5 = true then 4 * pal + bg
    else 16 + 4 * (e.attr.toNat % 4) + slotPixelAt e (p.dot - 1)

/-- The colour of the dot's pixel, greyscale applied (rule R386). -/
def colourAt (p : Ppu) : Byte :=
  if p.mask.getLsbD 0 then p.palette.read (paletteEntryAt p) &&& 0x30#8 else p.palette.read (paletteEntryAt p)

/-- An opaque pixel of sprite 0 over an opaque background pixel, not in the last column (rule R386). -/
def hitAt (p : Ppu) : Bool :=
  (bgPixelAt p).1 != 0 && p.dot != 256 && p.spr0OnLine && (spriteAt p).any fun e => e.2 == 0

end Sys2Proof.Machine
end

