-- ==== Sys2Proof/Certificates/Slice0/Obligations.lean ====
section
/-! DEFINITION. The statements about the machine, from the numbered rules of spec/. -/

open Sys2Proof Sys2Proof.Machine

/-! ### Encoding (spec/30_encoding.md) -/

/-- Words written out from the opcode map (rule R105) and the formats (rule R101: a 16-bit operand low byte first)
decode to the instructions they stand for. -/
def Obligations.SampleWordsDecode : Prop :=
  decode [0xA9#8, 0x05#8] = .ok (.ldaImm 0x05#8, []) ∧
  decode [0x8D#8, 0x00#8, 0x02#8] = .ok (.staAbs 0x0200#16, []) ∧
  decode [0xB1#8, 0x10#8, 0x77#8] = .ok (.ldaIndY 0x10#8, [0x77#8]) ∧
  decode [0xD0#8, 0xFB#8] = .ok (.bne 0xFB#8, []) ∧
  decode [0x6C#8, 0xFF#8, 0x12#8] = .ok (.jmpInd 0x12FF#16, []) ∧
  decode [0x4A#8] = .ok (.lsrA, []) ∧
  decode [0x00#8] = .ok (.brk, []) ∧
  decode [0xC7#8, 0x10#8] = .ok (.dcpZp 0x10#8, []) ∧
  decode [0xB6#8, 0xF0#8] = .ok (.ldxZpY 0xF0#8, []) ∧
  decode [0x02#8, 0x01#8] = .ok (.jam02, [0x01#8]) ∧
  decode [0x20#8, 0x10#8] = .error (.missingOperand 0x20#8)

/-- Decoding what `encode` writes gives the instruction back, for every instruction and every operand. -/
def Obligations.EncodeThenDecodeGivesTheInstructionBack : Prop :=
  ∀ (i : Instr) (rest : List Byte), decode (encode i ++ rest) = .ok (i, rest)

/-- The opcode byte alone gives the table row and the length, 1, 2 or 3 bytes (rule R100); every byte list that is long
enough decodes (rule R102): no opcode is reserved; and what decodes is exactly the bytes `encode` writes. -/
def Obligations.DecodingIsTotalAndExact : Prop :=
  ∀ (op : Byte) (l : List Byte),
    ((decodeRow op).mode.bytes ≤ l.length + 1 ↔ ∃ i rest, decode (op :: l) = .ok (i, rest)) ∧
    (∀ i rest, decode (op :: l) = .ok (i, rest) → op :: l = encode i ++ rest ∧ i.opcode = op ∧
      i.row = decodeRow op ∧ i.operand.mode = i.row.mode ∧
      (encode i).length = (decodeRow op).mode.bytes ∧ (encode i).length ∈ [1, 2, 3])

/-- The table by mnemonic of rule R106 and the table by opcode of rule R105 agree in every column (mnemonic, mode, cycles,
the `+`, the `b`, which the relative forms and no others carry, and the class), and between them cover all 256 opcodes. -/
def Obligations.TableByRuleAgreesWithTableByOpcode : Prop :=
  (∀ r < 300, ∀ f ∈ formsOfRule r, (decodeRow f.opcode).mode = f.mode ∧ (decodeRow f.opcode).cycles = f.cycles ∧
    (decodeRow f.opcode).pagePenalty = f.adder ∧ some (decodeRow f.opcode).kind = mnemonicOfRule r ∧
    (decodeRow f.opcode).cls = classOfRule r ∧
    ((decodeRow f.opcode).branchAdders = true ↔ f.mode = .relative)) ∧
  (∀ op : Byte, ∃ r < 300, ∃ f ∈ formsOfRule r, f.opcode = op)

/-! ### Steps (spec/63_io_and_scheduler.md, 00_scope.md) -/

/-- When neither the host nor an interrupt stands before it, a step fetches the bytes at PC, runs the instruction they
decode to, and drains its cost. (The list of the host's turns is the model's own field, log entry 6.) -/
def Obligations.StepRunsDecodedInstruction : Prop :=
  ∀ (s : State) (n : Nat) (i : Instr), s.quiet = true → decode (fetchBytes n s).1 = .ok (i, []) →
    step s = settled s.cyc (exec i (fetchBytes n s).2)

/-- Fetching from memory reads the stored bytes in ascending address order and changes only PC and `bus.last`. -/
def Obligations.FetchReadsTheStoredBytes : Prop :=
  ∀ (l : List Byte) (b : Byte) (s : State),
    (∀ k : Nat, k < (l ++ [b]).length →
      s.plainAt (s.cpu.pc + BitVec.ofNat 16 k) = true ∧
      s.byteAt (s.cpu.pc + BitVec.ofNat 16 k) = (l ++ [b])[k]?) →
    fetchBytes (l.length + 1) s =
      (l ++ [b], { s with cpu := { s.cpu with pc := s.cpu.pc + BitVec.ofNat 16 (l.length + 1) }, busLast := b })

/-- A step answers a next state, whatever the state, unless the host stops the loop at its boundary; no step faults, and
a step is refused only by the host's stop or by the construction parameter `unstable_policy = refuse`. That the host's
actions are a list in the state and that its stop is a refusal is the model's choice (log entry 6). -/
def Obligations.EveryStepAnswersUnlessTheHostStops : Prop :=
  ∀ s : State,
    (s.takeTurn.1.stop = true → step s = .refused .hostStopped) ∧
    (s.takeTurn.1.stop = false → s.params.unstablePolicy = .nop → ∃ t, step s = .next t) ∧
    (∀ f, step s ≠ .fault f) ∧
    (∀ r, step s = .refused r → s.takeTurn.1.stop = true ∨ s.params.unstablePolicy = .refuse)

/-- Under the default policy a run never ends by itself: a step from a state with that policy, whose host stops at none of
the boundaries to come, answers a next state, and that state is such a one again; so every state the machine passes
through answers a next state. That the host's actions are a list in the state is the model's choice (log entry 6). -/
def Obligations.RunsGoOnUntilTheHostStops : Prop :=
  ∀ s : State, s.params.unstablePolicy = .nop → s.hostNeverStops = true →
    (∃ t, step s = .next t ∧ t.params.unstablePolicy = .nop ∧ t.hostNeverStops = true) ∧ Safe s

/-- A quiet step's cost drains exactly three dots per cycle, and only the PPU, the mapper and `nmi_pending` change while
it drains (rules R30, R484). -/
def Obligations.DrainChangesOnlyTheVideoSide : Prop :=
  ∀ (cost : Nat) (s : State),
    (s.drain cost).ppu.ticks = s.ppu.ticks + 3 * cost ∧
    ∃ v : Video, s.drain cost = { s with ppu := v.ppu, mapper := v.mapper, nmiPending := v.nmi } ∧
      v.ppu.ctrl = s.ppu.ctrl ∧ v.ppu.mask = s.ppu.mask ∧ v.ppu.t = s.ppu.t ∧ v.ppu.x = s.ppu.x ∧
      v.ppu.w = s.ppu.w ∧ v.ppu.readbuf = s.ppu.readbuf ∧ v.ppu.vram = s.ppu.vram ∧ v.ppu.oam = s.ppu.oam ∧
      v.ppu.palette = s.ppu.palette

/-- The buttons are written by the host alone (rules R476, R488), a step takes exactly one turn of the host, and the
construction parameters never change. The list of the host's turns is the model's own field (log entry 6). -/
def Obligations.OnlyTheHostWritesButtons : Prop :=
  ∀ s t : State, step s = .next t →
    t.ctl0.buttons = s.takeTurn.1.buttons0.getD s.ctl0.buttons ∧
    t.ctl1.buttons = s.takeTurn.1.buttons1.getD s.ctl1.buttons ∧
    t.host = s.host.tail ∧ t.params = s.params

/-! ### Power-on and reset (spec/70_reset_and_hazards.md, 62_mapper.md) -/

/-- The state after power-on, for any configuration that is accepted (rules R50, R51, R502): every field, the 21 dots of the
reset sequence included, which write the backdrop colour to the first 21 cells of the framebuffer. The model's own in it:
that `cfg`'s parameters stand in the state (log entry 1), that a cell which `cfg` does not list is $00 (log entry 2), the
byte between two sprite fetches (log entry 4) and the empty list of the host's turns (log entry 6). -/
def Obligations.PowerOnState : Prop :=
  ∀ (cfg : Cfg) (s : State), powerOn cfg = .ok s →
    s.cpu = { a := 0x00#8, x := 0x00#8, y := 0x00#8, sp := 0xFD#8, p := 0x24#8, pc := s.vectorAt 0xFFFC#16 } ∧
    s.busLast = hiByte (s.vectorAt 0xFFFC#16) ∧ s.cyc = 7 ∧ s.nmiPending = false ∧
    s.ppu.scanline = 0 ∧ s.ppu.dot = 21 ∧ s.ppu.frame = 0 ∧ s.ppu.ticks = 21 ∧
    s.ppu.ctrl = 0#8 ∧ s.ppu.mask = 0#8 ∧ s.ppu.oamaddr = 0#8 ∧ s.ppu.v = 0#15 ∧ s.ppu.t = 0#15 ∧ s.ppu.x = 0#3 ∧
    s.ppu.w = false ∧ s.ppu.readbuf = 0#8 ∧ s.ppu.vblank = false ∧ s.ppu.sprite0hit = false ∧
    s.ppu.overflow = false ∧ s.ppu.frameReady = false ∧
    s.ppu.ntLatch = 0#8 ∧ s.ppu.atLatch = 0#2 ∧ s.ppu.ptLoLatch = 0#8 ∧ s.ppu.ptHiLatch = 0#8 ∧
    s.ppu.bgLo = 0#16 ∧ s.ppu.bgHi = 0#16 ∧ s.ppu.atLo = 0#16 ∧ s.ppu.atHi = 0#16 ∧
    s.ppu.sec = Vector.replicate 8 ⟨0#8, 0#8, 0#8, 0#8⟩ ∧ s.ppu.secCount = 0 ∧ s.ppu.secHas0 = false ∧
    s.ppu.slots = Vector.replicate 8 ⟨0#8, 0#8, 0#8, 0#8⟩ ∧ s.ppu.spriteCount = 0 ∧ s.ppu.spr0OnLine = false ∧
    s.ppu.sprLoLatch = 0#8 ∧ s.ppu.framebuffer.wf 61440 = true ∧
    (∀ i, s.ppu.framebuffer.read i = if i < 21 then s.ppu.palette.read 0 else 0#8) ∧
    s.ram = Memory.ofCells 2048 cfg.ramInit ∧ s.ppu.vram = Memory.ofCells 4096 cfg.vramInit ∧
    s.ppu.oam = Memory.ofCells 256 cfg.oamInit ∧
    s.ppu.palette = Memory.ofCells 32 (cfg.paletteInit.map fun c => (c.1, c.2 &&& 0x3F#8)) ∧
    s.cart = cartOf cfg ∧ (∃ b, boardOf cfg.cart.mapperId = some b ∧ s.mapper = mapperPowerOn cfg.cart.mirroring b) ∧
    s.ctl0 = ⟨false, 0#8, 0#8⟩ ∧ s.ctl1 = ⟨false, 0#8, 0#8⟩ ∧ s.params = cfg.params ∧ s.host = []

/-- Construction accepts exactly the images of rule R421, and otherwise says which of the two load errors of rule R420 it
is. (That an image listing bytes beyond its length is malformed is the model's choice, log entry 9.) -/
def Obligations.ConstructionAcceptsExactlyTheListedImages : Prop :=
  ∀ cfg : Cfg, cfg.cart.prg.wf cfg.cart.prgLen = true → cfg.cart.chr.wf cfg.cart.chrLen = true →
    ∃ n m : Nat, n = cfg.cart.prgLen / 16384 ∧ m = cfg.cart.chrLen / 8192 ∧
    construct cfg =
      if cfg.cart.mapperId ≠ 0 ∧ cfg.cart.mapperId ≠ 1 ∧ cfg.cart.mapperId ≠ 4 then
        .error (.unsupportedMapper cfg.cart.mapperId)
      else if cfg.cart.prgLen = 16384 * n ∧ cfg.cart.chrLen = 8192 * m ∧
          ((cfg.cart.mapperId = 0 ∧ n ∈ [1, 2] ∧ m ∈ [0, 1]) ∨
           (cfg.cart.mapperId = 1 ∧ n ∈ [1, 2, 4, 8, 16] ∧ m ∈ [0, 1, 2, 4, 8, 16]) ∨
           (cfg.cart.mapperId = 4 ∧ n ∈ [1, 2, 4, 8, 16, 32] ∧ m ∈ [0, 1, 2, 4, 8, 16, 32])) then
        .ok (powerOnColumn cfg (if cfg.cart.mapperId = 0 then .nrom else if cfg.cart.mapperId = 1 then .mmc1 else .mmc3))
      else .error .malformedRom

/-- `State.reset` is the power-on state of one accepted configuration: the empty NROM cartridge of log entry 3 with the
blank memories of log entry 2. -/
def Obligations.ResetStateIsPowerOnOfTheEmptyCartridge : Prop :=
  powerOn { cart := { mapperId := 0, prgLen := 16384, prg := [], chrLen := 0, chr := [], mirroring := .horizontal } } =
    .ok State.reset

/-- A reset that the host asserts replaces the poll of its boundary, whatever is pending, and does what rule R501 lists
and nothing else; then its 7 cycles are drained. (The list of the host's turns is the model's own field, log entry 6.) -/
def Obligations.HostResetRunsTheResetSequence : Prop :=
  ∀ (s : State) (h : HostTurn) (rest : List HostTurn), s.host = h :: rest → h.stop = false → h.reset = true →
    let b := applyHost h { s with host := rest }
    step s = .next (State.drain 7
      { b with
        cpu := { b.cpu with sp := b.cpu.sp - 3#8, p := b.cpu.p ||| 0x04#8, pc := b.vectorAt 0xFFFC#16 }
        busLast := hiByte (b.vectorAt 0xFFFC#16)
        nmiPending := false
        ppu := { b.ppu with ctrl := 0#8, mask := 0#8, w := false, x := 0#3, t := 0#15, readbuf := 0#8 }
        cyc := b.cyc + 7 })

/-! ### Interrupts, traps and returns (spec/60_exceptions.md, 45_control.md) -/

/-- The poll of a boundary (rule R303), once the host has acted without stopping or resetting, and the entries it takes
(rule R306): a pending NMI first, which the entry acknowledges; else an unmasked IRQ, which the entry does not withdraw;
else the next instruction is fetched and run. -/
def Obligations.PollTakesNmiThenUnmaskedIrq : Prop :=
  ∀ s b : State, s.takeTurn.1.stop = false → s.takeTurn.1.reset = false →
    b = applyHost s.takeTurn.1 s.takeTurn.2 →
    (b.nmiPending = true → step s = .next (State.drain 7 (State.entered 0xFFFA#16 { b with nmiPending := false }))) ∧
    (b.nmiPending = false → b.mapper.irqPending = true → getFlag b.cpu.p .I = false →
      step s = .next (State.drain 7 (State.entered 0xFFFE#16 b))) ∧
    (b.nmiPending = false → (b.mapper.irqPending = false ∨ getFlag b.cpu.p .I = true) →
      step s = settled b.cyc (exec (fetchInstr b).1 (fetchInstr b).2))

/-- BRK (rules R235, R308), where PC is the address of the opcode plus 1, and RTI (rule R236). -/
def Obligations.BrkTrapsAndRtiReturns : Prop :=
  ∀ s : State,
    encode .brk = [0x00#8] ∧ encode .rti = [0x40#8] ∧
    exec .brk s = .next
      { s with
        cpu := { s.cpu with sp := s.cpu.sp - 3#8, p := s.cpu.p ||| 0x04#8, pc := s.vectorAt 0xFFFE#16 }
        ram := exceptionFrame s.cpu.sp (s.cpu.pc + 1#16) (s.cpu.p ||| 0x30#8) s.ram
        busLast := hiByte (s.vectorAt 0xFFFE#16)
        cyc := s.cyc + 7 } ∧
    exec .rti s = .next
      { s with
        cpu := { s.cpu with
          sp := s.cpu.sp + 3#8
          p := (s.stackByte (s.cpu.sp + 1#8) &&& 0xEF#8) ||| 0x20#8
          pc := wordOf (s.stackByte (s.cpu.sp + 3#8)) (s.stackByte (s.cpu.sp + 2#8)) }
        busLast := s.stackByte (s.cpu.sp + 3#8)
        cyc := s.cyc + 6 }

/-- An interrupt entry followed at once by RTI resumes at exactly the interrupted instruction with every CPU register as
it was, the I flag included (rule R309). -/
def Obligations.RtiUndoesInterruptEntry : Prop :=
  ∀ (s : State) (vector : Addr), s.statusWf → s.ram.wf 2048 = true → vector = 0xFFFA#16 ∨ vector = 0xFFFE#16 →
    ∃ t, exec .rti (s.entered vector) = .next t ∧ t.cpu = s.cpu ∧ t.cyc = s.cyc + 13

/-! ### Addressing (spec/40_addressing_modes.md) -/

/-- The effective address of every memory operand and whether its indexing crossed a page (rules R134 to R141): zero-page
sums and pointers wrap inside page 0, the others modulo 65,536; only the pointers make accesses, of RAM. -/
def Obligations.EffectiveAddresses : Prop :=
  ∀ (s : State) (z : Byte) (a : Addr),
    resolve (.zeropage z) s = (⟨z.setWidth 16, false⟩, s) ∧
    resolve (.zeropageX z) s = (⟨BitVec.ofNat 16 ((z.toNat + s.cpu.x.toNat) % 256), false⟩, s) ∧
    resolve (.zeropageY z) s = (⟨BitVec.ofNat 16 ((z.toNat + s.cpu.y.toNat) % 256), false⟩, s) ∧
    resolve (.absolute a) s = (⟨a, false⟩, s) ∧
    (∀ ea : Addr, ea = BitVec.ofNat 16 (a.toNat + s.cpu.x.toNat) →
      resolve (.absoluteX a) s = (⟨ea, decide (ea.toNat / 256 ≠ a.toNat / 256)⟩, s)) ∧
    (∀ ea : Addr, ea = BitVec.ofNat 16 (a.toNat + s.cpu.y.toNat) →
      resolve (.absoluteY a) s = (⟨ea, decide (ea.toNat / 256 ≠ a.toNat / 256)⟩, s)) ∧
    (∀ lo hi : Byte, lo = s.ram.read ((z.toNat + s.cpu.x.toNat) % 256) →
      hi = s.ram.read ((z.toNat + s.cpu.x.toNat + 1) % 256) →
      resolve (.indirectX z) s = (⟨wordOf hi lo, false⟩, { s with busLast := hi })) ∧
    (∀ (lo hi : Byte) (ea : Addr), lo = s.ram.read z.toNat → hi = s.ram.read ((z.toNat + 1) % 256) →
      ea = BitVec.ofNat 16 ((wordOf hi lo).toNat + s.cpu.y.toNat) →
      resolve (.indirectY z) s =
        (⟨ea, decide (ea.toNat / 256 ≠ (wordOf hi lo).toNat / 256)⟩, { s with busLast := hi }))

/-! ### Instructions (spec/41_load_store_transfer.md to 47_unofficial.md) -/

/-- LDA, LDX, LDY and LAX (rules R150 to R152, R255): the register or registers, and N, Z. -/
def Obligations.LoadInstructions : Prop :=
  ReadsAs (formsOfRule 150) (fun m c => { c with a := m, p := withNZ m c.p }) ∧
  ReadsAs (formsOfRule 151) (fun m c => { c with x := m, p := withNZ m c.p }) ∧
  ReadsAs (formsOfRule 152) (fun m c => { c with y := m, p := withNZ m c.p }) ∧
  ReadsAs (formsOfRule 255) (fun m c => { c with a := m, x := m, p := withNZ m c.p })

/-- AND, ORA, EOR, BIT (rules R180 to R183). -/
def Obligations.LogicInstructions : Prop :=
  ReadsAs (formsOfRule 180) (fun m c => loadASpec (c.a &&& m) c) ∧
  ReadsAs (formsOfRule 181) (fun m c => loadASpec (c.a ||| m) c) ∧
  ReadsAs (formsOfRule 182) (fun m c => loadASpec (c.a ^^^ m) c) ∧
  ReadsAs (formsOfRule 183) bitSpec

/-- ADC, SBC and SBC at $EB (rules R184, R185, R257): binary arithmetic with C the unsigned carry or inverted borrow and V
the signed overflow (rules R189, R190). CMP, CPX, CPY (rules R186 to R188, R191): no register written, V unchanged. -/
def Obligations.ArithmeticAndCompareInstructions : Prop :=
  ReadsAs (formsOfRule 184) addSpec ∧ ReadsAs (formsOfRule 185) subSpec ∧ ReadsAs (formsOfRule 257) subSpec ∧
  ReadsAs (formsOfRule 186) (fun m c => compareSpec c.a m c) ∧
  ReadsAs (formsOfRule 187) (fun m c => compareSpec c.x m c) ∧
  ReadsAs (formsOfRule 188) (fun m c => compareSpec c.y m c)

/-- ANC, ALR, ARR, AXS (rules R264 to R267). -/
def Obligations.ImmediateCombinations : Prop :=
  ReadsAs (formsOfRule 264) (fun m c =>
    { c with a := c.a &&& m, p := withC (decide (128 ≤ (c.a &&& m).toNat)) (withNZ (c.a &&& m) c.p) }) ∧
  ReadsAs (formsOfRule 265) (fun m c =>
    { loadASpec (BitVec.ofNat 8 ((c.a &&& m).toNat / 2)) c with
      p := withC (decide ((c.a &&& m).toNat % 2 = 1)) (withNZ (BitVec.ofNat 8 ((c.a &&& m).toNat / 2)) c.p) }) ∧
  ReadsAs (formsOfRule 266) (fun m c =>
    let r := BitVec.ofNat 8 ((c.a &&& m).toNat / 2 + 128 * carryIn c.p)
    { c with a := r, p := withC (r.getLsbD 6) (withV (r.getLsbD 6 != r.getLsbD 5) (withNZ r c.p)) }) ∧
  ReadsAs (formsOfRule 267) (fun m c =>
    let t := c.a &&& c.x
    let r := BitVec.ofInt 8 ((t.toNat : Int) - m.toNat)
    { c with x := r, p := withC (decide (m.toNat ≤ t.toNat)) (withNZ r c.p) })

/-- STA, STX, STY, SAX (rules R153 to R155, R256): one write of the effective address, no read of it, no register or flag
changed. -/
def Obligations.StoreInstructions : Prop :=
  StoresAs (formsOfRule 153) (fun c => c.a) ∧ StoresAs (formsOfRule 154) (fun c => c.x) ∧
  StoresAs (formsOfRule 155) (fun c => c.y) ∧ StoresAs (formsOfRule 256) (fun c => c.a &&& c.x)

/-- INC and DEC (rules R200, R201): N, Z from the byte written, C and V unchanged. ASL, LSR, ROL, ROR (rules R206 to
R209), on memory (A unchanged) and on A (no access). -/
def Obligations.IncrementsShiftsAndRotates : Prop :=
  ModifiesAs (formsOfRule 200) incSpec (fun r c => { c with p := withNZ r c.p }) ∧
  ModifiesAs (formsOfRule 201) decSpec (fun r c => { c with p := withNZ r c.p }) ∧
  (∀ x ∈ [((206 : Nat), aslSpec), (207, lsrSpec), (208, rolSpec), (209, rorSpec)],
    ModifiesAs (formsOfRule x.1) x.2 (fun r c => { c with p := withNZ r c.p }) ∧
    ActsAs ((formsOfRule x.1).filter fun f => f.mode = .accumulator) (fun c =>
      { c with a := (x.2 c.a c.p).1, p := withNZ (x.2 c.a c.p).1 (withC (x.2 c.a c.p).2 c.p) }))

/-- DCP, ISC, SLO, RLA, SRE, RRA (rules R258 to R263): the memory operation, then the accumulator operation with the byte
written and the carry the first left. -/
def Obligations.ReadModifyWriteCombinations : Prop :=
  ModifiesAs (formsOfRule 258) decSpec (fun r c => compareSpec c.a r c) ∧
  ModifiesAs (formsOfRule 259) incSpec subSpec ∧
  ModifiesAs (formsOfRule 260) aslSpec (fun r c => loadASpec (c.a ||| r) c) ∧
  ModifiesAs (formsOfRule 261) rolSpec (fun r c => loadASpec (c.a &&& r) c) ∧
  ModifiesAs (formsOfRule 262) lsrSpec (fun r c => loadASpec (c.a ^^^ r) c) ∧
  ModifiesAs (formsOfRule 263) rorSpec addSpec

/-- The transfers and the register increments and decrements (rules R156 to R161, R202 to R205). -/
def Obligations.TransfersAndRegisterCounts : Prop :=
  ActsAs (formsOfRule 156) (fun c => { c with x := c.a, p := withNZ c.a c.p }) ∧
  ActsAs (formsOfRule 157) (fun c => { c with y := c.a, p := withNZ c.a c.p }) ∧
  ActsAs (formsOfRule 158) (fun c => { c with a := c.x, p := withNZ c.x c.p }) ∧
  ActsAs (formsOfRule 159) (fun c => { c with a := c.y, p := withNZ c.y c.p }) ∧
  ActsAs (formsOfRule 160) (fun c => { c with x := c.sp, p := withNZ c.sp c.p }) ∧
  ActsAs (formsOfRule 161) (fun c => { c with sp := c.x }) ∧
  ActsAs (formsOfRule 202) (fun c => { c with x := c.x + 1#8, p := withNZ (c.x + 1#8) c.p }) ∧
  ActsAs (formsOfRule 203) (fun c => { c with y := c.y + 1#8, p := withNZ (c.y + 1#8) c.p }) ∧
  ActsAs (formsOfRule 204) (fun c => { c with x := c.x - 1#8, p := withNZ (c.x - 1#8) c.p }) ∧
  ActsAs (formsOfRule 205) (fun c => { c with y := c.y - 1#8, p := withNZ (c.y - 1#8) c.p })

/-- CLC, SEC, CLI, SEI, CLV, CLD, SED (rules R240 to R246): one bit of P. NOP and its unofficial forms (rules R247, R251 to
R253): no register changes, but the memory forms perform their read. -/
def Obligations.FlagInstructionsAndNops : Prop :=
  ActsAs (formsOfRule 240) (fun c => { c with p := c.p &&& 0xFE#8 }) ∧
  ActsAs (formsOfRule 241) (fun c => { c with p := c.p ||| 0x01#8 }) ∧
  ActsAs (formsOfRule 242) (fun c => { c with p := c.p &&& 0xFB#8 }) ∧
  ActsAs (formsOfRule 243) (fun c => { c with p := c.p ||| 0x04#8 }) ∧
  ActsAs (formsOfRule 244) (fun c => { c with p := c.p &&& 0xBF#8 }) ∧
  ActsAs (formsOfRule 245) (fun c => { c with p := c.p &&& 0xF7#8 }) ∧
  ActsAs (formsOfRule 246) (fun c => { c with p := c.p ||| 0x08#8 }) ∧
  ActsAs (formsOfRule 247) (fun c => c) ∧ ActsAs (formsOfRule 251) (fun c => c) ∧
  ReadsAs (formsOfRule 252) (fun _ c => c) ∧ ReadsAs (formsOfRule 253) (fun _ c => c)

/-- The eight branches (rules R224 to R232). -/
def Obligations.BranchInstructions : Prop :=
  BranchesOn (formsOfRule 225) (fun p => !getFlag p .C) ∧ BranchesOn (formsOfRule 226) (fun p => getFlag p .C) ∧
  BranchesOn (formsOfRule 227) (fun p => getFlag p .Z) ∧ BranchesOn (formsOfRule 228) (fun p => !getFlag p .Z) ∧
  BranchesOn (formsOfRule 229) (fun p => getFlag p .N) ∧ BranchesOn (formsOfRule 230) (fun p => !getFlag p .N) ∧
  BranchesOn (formsOfRule 231) (fun p => !getFlag p .V) ∧ BranchesOn (formsOfRule 232) (fun p => getFlag p .V)

/-- JMP, JSR and RTS (rules R220 to R223): the indirect jump takes the high byte of its target from the page of the
pointer, reading the low byte first; the address JSR pushes is that of its last byte, PC being past it. -/
def Obligations.JumpsCallsAndReturns : Prop :=
  ∀ (a : Addr) (s : State),
    encode (.jmpAbs a) = [0x4C#8, loByte a, hiByte a] ∧ encode (.jmpInd a) = [0x6C#8, loByte a, hiByte a] ∧
    encode (.jsrAbs a) = [0x20#8, loByte a, hiByte a] ∧ encode .rts = [0x60#8] ∧
    exec (.jmpAbs a) s = .next { s with cpu := { s.cpu with pc := a }, cyc := s.cyc + 3 } ∧
    (∀ (lo hi : Byte) (t u : State), busRead a s = (lo, t) →
      busRead (BitVec.ofNat 16 (a.toNat / 256 * 256 + (a.toNat + 1) % 256)) t = (hi, u) →
      exec (.jmpInd a) s = .next { u with cpu := { s.cpu with pc := wordOf hi lo }, cyc := s.cyc + 5 }) ∧
    exec (.jsrAbs a) s = .next
      { s with
        cpu := { s.cpu with sp := s.cpu.sp - 2#8, pc := a }
        ram := stackStore (s.cpu.sp - 1#8) (loByte (s.cpu.pc - 1#16))
          (stackStore s.cpu.sp (hiByte (s.cpu.pc - 1#16)) s.ram)
        busLast := loByte (s.cpu.pc - 1#16)
        cyc := s.cyc + 6 } ∧
    exec .rts s = .next
      { s with
        cpu := { s.cpu with
          sp := s.cpu.sp + 2#8
          pc := wordOf (s.stackByte (s.cpu.sp + 2#8)) (s.stackByte (s.cpu.sp + 1#8)) + 1#16 }
        busLast := s.stackByte (s.cpu.sp + 2#8)
        cyc := s.cyc + 6 }

/-- PHA, PHP, PLA, PLP (rules R170 to R173). -/
def Obligations.PushAndPullInstructions : Prop :=
  ∀ s : State,
    encode .pha = [0x48#8] ∧ encode .php = [0x08#8] ∧ encode .pla = [0x68#8] ∧ encode .plp = [0x28#8] ∧
    exec .pha s = .next
      { s with cpu := { s.cpu with sp := s.cpu.sp - 1#8 }, ram := stackStore s.cpu.sp s.cpu.a s.ram,
               busLast := s.cpu.a, cyc := s.cyc + 3 } ∧
    exec .php s = .next
      { s with cpu := { s.cpu with sp := s.cpu.sp - 1#8 }, ram := stackStore s.cpu.sp (s.cpu.p ||| 0x30#8) s.ram,
               busLast := s.cpu.p ||| 0x30#8, cyc := s.cyc + 3 } ∧
    ∀ v : Byte, v = s.stackByte (s.cpu.sp + 1#8) →
      exec .pla s = .next
        { s with cpu := { s.cpu with sp := s.cpu.sp + 1#8, a := v, p := withNZ v s.cpu.p },
                 busLast := v, cyc := s.cyc + 4 } ∧
      exec .plp s = .next
        { s with cpu := { s.cpu with sp := s.cpu.sp + 1#8, p := (v &&& 0xEF#8) ||| 0x20#8 },
                 busLast := v, cyc := s.cyc + 4 }

/-- XAA, LXA, SHA, SHY, SHX, TAS, LAS and JAM (rules R270 to R278): under the default policy they cost their baseline and
do nothing else; under `refuse`, and only then, they have no meaning (rule R107), which the model writes as the refusal
`unstableOpcode` (log entry 10). -/
def Obligations.UnstableOpcodesFollowThePolicy : Prop :=
  ∀ r ∈ [271, 272, 273, 274, 275, 276, 277, 278], ∀ f ∈ formsOfRule r, ∀ (i : Instr) (s : State), i.opcode = f.opcode →
    i.operand.mode = f.mode ∧
    (s.params.unstablePolicy = .nop → exec i s = .next { s with cyc := s.cyc + f.cycles }) ∧
    (s.params.unstablePolicy = .refuse → exec i s = .refused (.unstableOpcode i.row.kind))

/-- Every instruction that answers a next state costs what rule R112 says. -/
def Obligations.CostOfEveryInstruction : Prop :=
  ∀ (i : Instr) (s t : State), exec i s = .next t → t.cyc = s.cyc + costOf i s

/-- The Decimal flag changes no result (rule R27): but for the instructions that write it or push it, running with D set
either way gives the same next state, D apart. -/
def Obligations.DecimalFlagChangesNoResult : Prop :=
  ∀ (i : Instr) (s : State) (b : Bool), i.row.kind ∉ [.SED, .CLD, .PLP, .RTI, .PHP, .BRK] →
    exec i (s.withDecimal b) = onNext (State.withDecimal b) (exec i s)

/-! ### Frames -/

/-- An instruction that neither stores nor pushes leaves every byte of every memory as it was (rules R130, R83). -/
def Obligations.NonStoringInstructionsLeaveMemory : Prop :=
  ∀ (i : Instr) (s t : State), exec i s = .next t → storedTo i s = none → isPushing i.row.kind = false →
    (∀ a : Addr, t.byteAt a = s.byteAt a) ∧ t.cart = s.cart ∧ t.ppu.vram = s.ppu.vram ∧ t.ppu.oam = s.ppu.oam ∧
      t.ppu.palette = s.ppu.palette ∧ t.ppu.framebuffer = s.ppu.framebuffer

/-- A storing instruction leaves every byte of CPU memory but the one at its effective address as it was; a store at $8000
or above changes no stored byte at all (it may move the windows of PRG ROM); and it reaches the PPU's memories and CHR
RAM only through the PPU's registers or OAM DMA. -/
def Obligations.StoresChangeOnlyTheirByte : Prop :=
  ∀ (i : Instr) (s t : State) (ea : Addr), exec i s = .next t → storedTo i s = some ea →
    (∀ a : Addr, ¬ sameCell a ea → (a.toNat < 0x8000 ∨ ea.toNat < 0x8000) → t.byteAt a = s.byteAt a) ∧
    t.cart.prg = s.cart.prg ∧ t.ppu.framebuffer = s.ppu.framebuffer ∧
    (0x8000 ≤ ea.toNat → t.ram = s.ram ∧ t.cart = s.cart) ∧
    (ea.toNat < 0x2000 ∨ 0x4000 ≤ ea.toNat →
      t.ppu.vram = s.ppu.vram ∧ t.ppu.palette = s.ppu.palette ∧ t.cart.chr = s.cart.chr ∧
      (ea ≠ 0x4014#16 → t.ppu.oam = s.ppu.oam))

/-! ### The bus (spec/20_memory.md) -/

/-- A read outside the PPU's and the controllers' registers changes nothing but `bus.last`, and returns the byte of the
region (rules R62, R64, R65, R68, R427): RAM mirrored every $0800, the open bus where nothing answers, PRG RAM while it
is readable (always on NROM and MMC1, by bit 7 of its protect register on MMC3, rule R457), PRG ROM. A write to $4000 to
$5FFF other than $4014 and $4016 is absorbed: nothing but `bus.last` changes (rules R68, R427, R471, R477). -/
def Obligations.ReadsWithoutSideEffects : Prop :=
  (∀ (a : Addr) (s : State) (v : Byte), a.toNat < 0x2000 ∨ (0x4000 ≤ a.toNat ∧ a ≠ 0x4016#16 ∧ a ≠ 0x4017#16) →
    v = (if a.toNat < 0x2000 then s.ram.read (a.toNat % 2048)
         else if a.toNat < 0x6000 then s.busLast
         else if a.toNat < 0x8000 then (if s.mapper.ramReadable then s.cart.prgram.read (a.toNat - 0x6000) else s.busLast)
         else s.cart.prg.read (prgOffset s.cart s.mapper a)) →
    busRead a s = (v, { s with busLast := v })) ∧
  Mapper.nrom.ramReadable = true ∧ (∀ r, (Mapper.mmc1 r).ramReadable = true) ∧
  (∀ r, (Mapper.mmc3 r).ramReadable = r.ramProtect.getLsbD 7) ∧
  (∀ (a : Addr) (s : State) (v : Byte), 0x4000 ≤ a.toNat → a.toNat < 0x6000 → a ≠ 0x4014#16 → a ≠ 0x4016#16 →
    busWrite a v s = { s with busLast := v })

/-- The mirrors (rule R82): a byte written to RAM is read back through every mirror of its cell and through no other
address of RAM; an access anywhere in $2000 to $3FFF is the access to $2000 to $2007 with the same low bits. And PRG RAM
at $6000 to $7FFF (rules R427, R457): a write stores its byte there, on MMC3 only while bit 7 of the protect register is 1
and bit 6 is 0, and changes nothing else but `bus.last`; it is read back at its own address and at no other. -/
def Obligations.MirrorsAreTheSameCellsAndRegisters : Prop :=
  ∀ (a b : Addr) (v : Byte) (s : State),
    (s.ram.wf 2048 = true → a.toNat < 0x2000 → b.toNat < 0x2000 →
      (busRead b (busWrite a v s)).1 = if a.toNat % 2048 = b.toNat % 2048 then v else (busRead b s).1) ∧
    (0x2000 ≤ a.toNat → a.toNat < 0x4000 →
      busRead a s = busRead (BitVec.ofNat 16 (0x2000 + a.toNat % 8)) s ∧
      busWrite a v s = busWrite (BitVec.ofNat 16 (0x2000 + a.toNat % 8)) v s) ∧
    (0x6000 ≤ a.toNat → a.toNat < 0x8000 → ∀ readable writable : Bool,
      readable = (match s.mapper with | .nrom => true | .mmc1 _ => true | .mmc3 r => r.ramProtect.getLsbD 7) →
      writable = (match s.mapper with
                  | .nrom => true
                  | .mmc1 _ => true
                  | .mmc3 r => r.ramProtect.getLsbD 7 && !r.ramProtect.getLsbD 6) →
      busWrite a v s = (if writable then
          { s with busLast := v, cart := { s.cart with prgram := s.cart.prgram.write (a.toNat - 0x6000) v } }
        else { s with busLast := v }) ∧
      (s.cart.prgram.wf 8192 = true → 0x6000 ≤ b.toNat → b.toNat < 0x8000 →
        (busRead b (busWrite a v s)).1 =
          if readable = false ∨ (a = b ∧ writable = true) then v else s.cart.prgram.read (b.toNat - 0x6000)))

/-! ### The PPU registers (spec/61_ppu.md section 2) -/

/-- Reads of PPUSTATUS, OAMDATA and the write-only registers (rules R349, R354, R359), and of PPUDATA (rules R361, R362):
below $3F00 the byte fetched by the previous read, above it the palette entry at once; the buffer takes the byte at the
address (under the palette, the nametable byte), the mapper is told that address, and `v` moves on by 1 or 32. -/
def Obligations.PpuRegisterReads : Prop :=
  ∀ (s : State) (v : Byte),
    (v.toNat = s.busLast.toNat % 32 + 32 * s.ppu.overflow.toNat + 64 * s.ppu.sprite0hit.toNat
        + 128 * s.ppu.vblank.toNat →
      busRead 0x2002#16 s = (v,
        { s with busLast := v, nmiPending := false, ppu := { s.ppu with vblank := false, w := false } })) ∧
    (v = s.ppu.oam.read s.ppu.oamaddr.toNat → busRead 0x2004#16 s = (v, { s with busLast := v })) ∧
    (∀ a : Addr, a ∈ [0x2000#16, 0x2001#16, 0x2003#16, 0x2005#16, 0x2006#16] → busRead a s = (s.busLast, s)) ∧
    (∀ (a fetched : BitVec 14) (m : Mapper), a.toNat = s.ppu.v.toNat % 16384 →
      v = (if a.toNat < 0x3F00 then s.ppu.readbuf
           else s.ppu.palette.read (palIndex a.toNat) ||| (s.busLast &&& 0xC0#8)) →
      fetched = (if a.toNat < 0x3F00 then a else a &&& 0x2FFF#14) →
      m = s.mapper.notify s.params.a12FilterDots fetched s.ppu.ticks →
      busRead 0x2007#16 s = (v,
        { s with
          busLast := v
          mapper := m
          ppu := { s.ppu with
            readbuf := ppuPeek s.cart m s.ppu fetched
            v := BitVec.ofNat 15 (s.ppu.v.toNat + if s.ppu.ctrl.getLsbD 2 then 32 else 1) } }))

/-- Writes of PPUCTRL, PPUMASK, PPUSTATUS, OAMADDR and OAMDATA (rules R347, R348, R360, R353, R355), and the two writes of
PPUSCROLL and of PPUADDR, which share the toggle `w` (rules R344, R356, R357). -/
def Obligations.PpuRegisterWrites : Prop :=
  ∀ (s : State) (v : Byte) (p : Ppu), p = s.ppu →
    busWrite 0x2000#16 v s =
      { s with
        busLast := v
        ppu := { p with
          ctrl := v, t := BitVec.ofNat 15 (p.t.toNat / 4096 * 4096 + v.toNat % 4 * 1024 + p.t.toNat % 1024) } } ∧
    busWrite 0x2001#16 v s = { s with busLast := v, ppu := { p with mask := v } } ∧
    busWrite 0x2002#16 v s = { s with busLast := v } ∧
    busWrite 0x2003#16 v s = { s with busLast := v, ppu := { p with oamaddr := v } } ∧
    busWrite 0x2004#16 v s =
      { s with
        busLast := v
        ppu := { p with oam := p.oam.write p.oamaddr.toNat v, oamaddr := p.oamaddr + 1#8 } } ∧
    (p.w = false →
      busWrite 0x2005#16 v s =
        { s with
          busLast := v
          ppu := { p with
            t := BitVec.ofNat 15 (p.t.toNat / 32 * 32 + v.toNat / 8), x := BitVec.ofNat 3 v.toNat, w := true } } ∧
      busWrite 0x2006#16 v s =
        { s with
          busLast := v
          ppu := { p with t := BitVec.ofNat 15 (v.toNat % 64 * 256 + p.t.toNat % 256), w := true } }) ∧
    (p.w = true →
      busWrite 0x2005#16 v s =
        { s with
          busLast := v
          ppu := { p with
            w := false
            t := BitVec.ofNat 15
              (v.toNat % 8 * 4096 + p.t.toNat / 1024 % 4 * 1024 + v.toNat / 8 * 32 + p.t.toNat % 32) } } ∧
      ∀ t : BitVec 15, t = BitVec.ofNat 15 (p.t.toNat / 256 * 256 + v.toNat) →
        busWrite 0x2006#16 v s =
          { s with
            busLast := v
            mapper := s.mapper.notify s.params.a12FilterDots (BitVec.ofNat 14 t.toNat) p.ticks
            ppu := { p with t := t, v := t, w := false } })

/-- A write of PPUDATA (rules R350, R358): the mapper is told the address, then the byte goes to CHR memory through the
board, to the nametable cell the mirroring chooses, or (6 bits of it) to the palette; `v` moves on by 1 or 32. -/
def Obligations.PpuDataWrite : Prop :=
  ∀ (s : State) (v : Byte) (a : BitVec 14) (m : Mapper) (next : BitVec 15), a.toNat = s.ppu.v.toNat % 16384 →
    m = s.mapper.notify s.params.a12FilterDots a s.ppu.ticks →
    next = BitVec.ofNat 15 (s.ppu.v.toNat + if s.ppu.ctrl.getLsbD 2 then 32 else 1) →
    busWrite 0x2007#16 v s =
      if a.toNat < 0x2000 then
        { s with
          busLast := v, mapper := m, ppu := { s.ppu with v := next }
          cart := { s.cart with
            chr := if s.cart.chrUnits = 0 then s.cart.chr.write (chrOffset s.cart m a.toNat) v else s.cart.chr } }
      else if a.toNat < 0x3F00 then
        { s with busLast := v, mapper := m, ppu := { s.ppu with
          v := next, vram := s.ppu.vram.write (ntIndex (mapperMirroring s.cart m) a) v } }
      else
        { s with busLast := v, mapper := m, ppu := { s.ppu with
          v := next, palette := s.ppu.palette.write (palIndex a.toNat) (BitVec.ofNat 8 (v.toNat % 64)) } }

/-! ### The dot engine (spec/61_ppu.md sections 3 to 6) -/

/-- Vblank begins at scanline 241, dot 1 (rule R366), and ends at scanline 261, dot 1 (rule R367). -/
def Obligations.VblankBeginsAndEnds : Prop :=
  ∀ s : State,
    ((advance s.ppu).scanline = 241 → (advance s.ppu).dot = 1 →
      s.tick = { s with
        nmiPending := s.nmiPending || s.ppu.ctrl.getLsbD 7
        ppu := { advance s.ppu with vblank := true, frameReady := true } }) ∧
    ((advance s.ppu).scanline = 261 → (advance s.ppu).dot = 1 →
      s.tick.ppu.vblank = false ∧ s.tick.ppu.sprite0hit = false ∧ s.tick.ppu.overflow = false ∧
      s.tick.nmiPending = false)

/-- On scanlines 240 to 260 a tick moves the position and does nothing else but at 241:1 (rule R365); with rendering
disabled it does no more on the other lines than write the backdrop colour (rule R368), but for the end of vblank. -/
def Obligations.IdleLinesAndDisabledRendering : Prop :=
  ∀ (s : State) (q : Ppu), q = advance s.ppu → ¬ (q.scanline = 241 ∧ q.dot = 1) → ¬ (q.scanline = 261 ∧ q.dot = 1) →
    (240 ≤ q.scanline → q.scanline ≤ 260 → s.tick = { s with ppu := q }) ∧
    (s.ppu.mask.getLsbD 3 = false → s.ppu.mask.getLsbD 4 = false →
      s.tick = { s with ppu := { q with
        framebuffer := if q.scanline < 240 ∧ 1 ≤ q.dot ∧ q.dot ≤ 256 then
            q.framebuffer.write (256 * q.scanline + (q.dot - 1))
              (if s.ppu.mask.getLsbD 0 then q.palette.read 0 &&& 0x30#8 else q.palette.read 0)
          else q.framebuffer } })

/-- A frame has 89,342 ticks (rule R364): from any position on the grid, that many ticks lead to the same position of the
next frame and pass 241:1 exactly once; the NMI is raised there if it is enabled, and by no other tick (rule R305). -/
def Obligations.OneFrameRaisesOneNmi : Prop :=
  (∀ s : State, s.positionWf →
    (State.ticks 89342 s).ppu.scanline = s.ppu.scanline ∧ (State.ticks 89342 s).ppu.dot = s.ppu.dot ∧
    (State.ticks 89342 s).ppu.frame = s.ppu.frame + 1 ∧
    ∃ k, k < 89342 ∧
      (∀ j, j < 89342 → (((State.ticks (j + 1) s).ppu.scanline = 241 ∧ (State.ticks (j + 1) s).ppu.dot = 1) ↔ j = k)) ∧
      (s.ppu.ctrl.getLsbD 7 = true → (State.ticks (k + 1) s).nmiPending = true) ∧
      (State.ticks (k + 1) s).ppu.vblank = true) ∧
  (∀ s : State, s.nmiPending = false → s.tick.nmiPending = true →
    s.tick.ppu.scanline = 241 ∧ s.tick.ppu.dot = 1 ∧ s.ppu.ctrl.getLsbD 7 = true)

/-- The updates of the VRAM address during rendering, field by field (rules R377 to R380), and the dots at which a tick
makes them (rule R370): at no other dot, and not while rendering is disabled, does a tick change `v`. -/
def Obligations.ScrollUpdates : Prop :=
  (∀ v t : BitVec 15,
    (incCoarseX v).toNat = (if coarseX v = 31 then
        32 * coarseY v + 1024 * (1 - ntX v) + 2048 * ntY v + 4096 * fineYOf v
      else v.toNat + 1) ∧
    (incY v).toNat = (if fineYOf v < 7 then v.toNat + 4096
      else coarseX v + 1024 * ntX v
        + (if coarseY v = 29 then 2048 * (1 - ntY v)
           else if coarseY v = 31 then 2048 * ntY v else 32 * (coarseY v + 1) + 2048 * ntY v)) ∧
    (copyX t v).toNat = coarseX t + 32 * coarseY v + 1024 * ntX t + 2048 * ntY v + 4096 * fineYOf v ∧
    (copyY t v).toNat = coarseX v + 32 * coarseY t + 1024 * ntX v + 2048 * ntY t + 4096 * fineYOf t) ∧
  (∀ (s : State) (q : Ppu), q = advance s.ppu →
    (q.renders → s.tick.ppu.v =
      if q.dot = 256 then incY (incCoarseX s.ppu.v)
      else if q.dot = 257 then copyX s.ppu.t s.ppu.v
      else if q.scanline = 261 ∧ 280 ≤ q.dot ∧ q.dot ≤ 304 then copyY s.ppu.t s.ppu.v
      else if isTileDot q.dot ∧ q.dot % 8 = 0 then incCoarseX s.ppu.v
      else s.ppu.v) ∧
    (¬ q.renders → s.tick.ppu.v = s.ppu.v))

/-- What else a tick does on a rendering line with rendering enabled, dot by dot (rules R370 to R376, R381, R383): it
drives one address at most, of which the mapper is told; each latch takes the byte at that address on its own dot and on
no other; the shifters shift and are reloaded; a sprite slot is loaded at the last of its four fetches; OAMADDR is cleared
at dots 257 to 320. Then the address of a sprite's pattern byte, where its row lies in the sprite (outside, log entry 5
says what the model does), and of an empty slot. (The byte held between a slot's two pattern fetches is the model's own
field, log entry 4.) -/
def Obligations.DotsFollowTheFetchSchedule : Prop :=
  (∀ (s : State) (q r : Ppu) (m : Mapper), q = advance s.ppu → q.renders → r = s.tick.ppu → m = s.tick.mapper →
    m = (match drivenAddr q with
         | some a => s.mapper.notify s.params.a12FilterDots a (s.ppu.ticks + 1)
         | none => s.mapper) ∧
    r.ntLatch = (if (isTileDot q.dot ∧ q.dot % 8 = 1) ∨ q.dot = 337 ∨ q.dot = 339 then
        ppuPeek s.cart m s.ppu (ntAddrOf q.v) else s.ppu.ntLatch) ∧
    r.atLatch = (if isTileDot q.dot ∧ q.dot % 8 = 3 then
        atFieldOf q.v (ppuPeek s.cart m s.ppu (atAddrOf q.v)) else s.ppu.atLatch) ∧
    r.ptLoLatch = (if isTileDot q.dot ∧ q.dot % 8 = 5 then ppuPeek s.cart m s.ppu (ptAddrOf q) else s.ppu.ptLoLatch) ∧
    r.ptHiLatch = (if isTileDot q.dot ∧ q.dot % 8 = 7 then
        ppuPeek s.cart m s.ppu (ptAddrOf q + 8#14) else s.ppu.ptHiLatch) ∧
    r.bgLo = shifterAt q.dot s.ppu.bgLo s.ppu.ptLoLatch ∧ r.bgHi = shifterAt q.dot s.ppu.bgHi s.ppu.ptHiLatch ∧
    r.atLo = shifterAt q.dot s.ppu.atLo (attrByte (s.ppu.atLatch.getLsbD 0)) ∧
    r.atHi = shifterAt q.dot s.ppu.atHi (attrByte (s.ppu.atLatch.getLsbD 1)) ∧
    r.sprLoLatch = (if 257 ≤ q.dot ∧ q.dot ≤ 320 ∧ q.dot % 8 = 5 then
        ppuPeek s.cart m s.ppu (spriteAddr q ((q.dot - 257) / 8)) else s.ppu.sprLoLatch) ∧
    (∀ (i : Nat) (e : SecEntry), s.ppu.sec[i]? = some e → r.slots[i]? =
      if q.dot = 263 + 8 * i then
        some (if i < s.ppu.secCount then
            ⟨s.ppu.sprLoLatch, ppuPeek s.cart m s.ppu (spriteAddr q i + 8#14), e.attr, e.x⟩
          else ⟨0#8, 0#8, 0#8, 0#8⟩)
      else s.ppu.slots[i]?) ∧
    r.oamaddr = (if 257 ≤ q.dot ∧ q.dot ≤ 320 then 0#8 else s.ppu.oamaddr)) ∧
  (∀ (p : Ppu) (i : Nat),
    (∀ (e : SecEntry) (row line : Nat), i < p.secCount → p.sec[i]? = some e → p.scanline = e.y.toNat + row →
      row < (if p.ctrl.getLsbD 5 then 16 else 8) →
      line = (if e.attr.getLsbD 7 then (if p.ctrl.getLsbD 5 then 15 else 7) - row else row) →
      (spriteAddr p i).toNat =
        if p.ctrl.getLsbD 5 then
          4096 * (e.tile.toNat % 2) + 16 * (e.tile.toNat / 2 * 2 + line / 8) + line % 8
        else (if p.ctrl.getLsbD 3 then 4096 else 0) + 16 * e.tile.toNat + line) ∧
    (p.secCount ≤ i → spriteAddr p i = if p.ctrl.getLsbD 5 || p.ctrl.getLsbD 3 then 0x1FF0#14 else 0x0FF0#14))

/-- Sprite evaluation (rule R382): the tick at dot 257 of a visible line, rendering enabled, selects the first 8 sprites
in range in OAM order, and sets the overflow flag if there are more; that of the pre-render line selects none; no other
tick changes the selection. -/
def Obligations.SpriteEvaluationSelectsTheFirstEight : Prop :=
  (∀ (s : State) (q : Ppu) (inRange : List Nat), q = advance s.ppu → q.scanline < 240 → q.dot = 257 →
    (s.ppu.mask.getLsbD 3 || s.ppu.mask.getLsbD 4) = true →
    inRange = (List.range 64).filter (fun n =>
      decide ((s.ppu.oam.read (4 * n)).toNat ≤ q.scanline) &&
      decide (q.scanline < (s.ppu.oam.read (4 * n)).toNat + (if s.ppu.ctrl.getLsbD 5 then 16 else 8))) →
    s.tick.ppu.secCount = min 8 inRange.length ∧ s.tick.ppu.spriteCount = min 8 inRange.length ∧
    s.tick.ppu.overflow = (s.ppu.overflow || decide (8 < inRange.length)) ∧
    s.tick.ppu.spr0OnLine = decide (0 ∈ inRange) ∧ s.tick.ppu.secHas0 = decide (0 ∈ inRange) ∧
    ∀ k n, k < 8 → inRange[k]? = some n → s.tick.ppu.sec[k]? = some
      ⟨s.ppu.oam.read (4 * n), s.ppu.oam.read (4 * n + 1), s.ppu.oam.read (4 * n + 2), s.ppu.oam.read (4 * n + 3)⟩) ∧
  (∀ (s : State) (q : Ppu), q = advance s.ppu →
    (q.renders → q.scanline = 261 → q.dot = 257 →
      s.tick.ppu.secCount = 0 ∧ s.tick.ppu.secHas0 = false ∧ s.tick.ppu.spriteCount = 0 ∧
      s.tick.ppu.spr0OnLine = false) ∧
    (¬ q.renders ∨ q.dot ≠ 257 →
      s.tick.ppu.sec = s.ppu.sec ∧ s.tick.ppu.secCount = s.ppu.secCount ∧ s.tick.ppu.secHas0 = s.ppu.secHas0 ∧
      s.tick.ppu.spriteCount = s.ppu.spriteCount ∧ s.tick.ppu.spr0OnLine = s.ppu.spr0OnLine))

/-- A tick writes one framebuffer cell at most, cell [s][px] at scanline s and dot px + 1 of a visible line, and no other
tick writes any (rule R387). The value is the palette entry of the pixel by rules R384 to R386, greyscale applied: of the
background pixel or the first opaque sprite pixel by priority, the backdrop where neither is opaque or rendering is
disabled (rule R368); it holds 6 bits, as palette entries do. -/
def Obligations.EachVisibleDotWritesItsCell : Prop :=
  ∀ (s : State) (q : Ppu), q = advance s.ppu → s.ppu.framebuffer.wf 61440 = true →
    if q.drawsPixel then
      s.tick.ppu.framebuffer.read (256 * q.scanline + (q.dot - 1)) = colourAt q ∧
      (¬ q.renders → colourAt q =
        if s.ppu.mask.getLsbD 0 then s.ppu.palette.read 0 &&& 0x30#8 else s.ppu.palette.read 0) ∧
      ((∀ i, (s.ppu.palette.read i).toNat < 64) → (colourAt q).toNat < 64) ∧
      ∀ i, i ≠ 256 * q.scanline + (q.dot - 1) → s.tick.ppu.framebuffer.read i = s.ppu.framebuffer.read i
    else s.tick.ppu.framebuffer = s.ppu.framebuffer

/-- Sprite-zero hit (rule R386). A tick sets it exactly where an opaque pixel of sprite 0, the first opaque one there, lies
over an opaque background pixel at a visible dot other than the last column; no tick but the one at 261:1 clears it. So a
hit needs both layers enabled and, in the leftmost 8 pixels, both left-column bits set. -/
def Obligations.SpriteZeroHitNeedsBothLayers : Prop :=
  (∀ (s : State) (q : Ppu), q = advance s.ppu → ¬ (q.scanline = 261 ∧ q.dot = 1) →
    (s.tick.ppu.sprite0hit = true ↔ s.ppu.sprite0hit = true ∨ (q.drawsPixel ∧ hitAt q = true))) ∧
  (∀ s : State, s.ppu.sprite0hit = false → s.tick.ppu.sprite0hit = true →
    s.ppu.mask.getLsbD 3 = true ∧ s.ppu.mask.getLsbD 4 = true ∧ s.tick.ppu.scanline < 240 ∧
    1 ≤ s.tick.ppu.dot ∧ s.tick.ppu.dot ≤ 255 ∧
    (s.tick.ppu.dot ≤ 8 → s.ppu.mask.getLsbD 1 = true ∧ s.ppu.mask.getLsbD 2 = true))

/-! ### The cartridge (spec/62_mapper.md) -/

/-- PRG ROM through the boards' windows (rules R432, R445, R454): the byte a read of $8000 to $FFFF returns. -/
def Obligations.PrgRomWindows : Prop :=
  ∀ (s : State) (a : Addr), 0x8000 ≤ a.toNat →
    (s.mapper = .nrom → (busRead a s).1 = s.cart.prg.read ((a.toNat - 0x8000) % (16384 * s.cart.prgUnits))) ∧
    (∀ r, s.mapper = .mmc1 r → ∀ bank : Nat,
      bank = (match r.control.toNat / 4 % 4 with
              | 2 => if a.toNat < 0xC000 then 0 else r.prgbank.toNat % 16
              | 3 => if a.toNat < 0xC000 then r.prgbank.toNat % 16 else s.cart.prgUnits - 1
              | _ => r.prgbank.toNat % 16 / 2 * 2 + (if a.toNat < 0xC000 then 0 else 1)) →
      (busRead a s).1 = s.cart.prg.read ((bank * 16384 + a.toNat % 16384) % (16384 * s.cart.prgUnits))) ∧
    (∀ r, s.mapper = .mmc3 r → ∀ (bank n8 : Nat), n8 = 2 * s.cart.prgUnits →
      bank = (if a.toNat < 0xA000 then (if r.bankSelect.getLsbD 6 then n8 - 2 else r.bank[6].toNat % 64)
              else if a.toNat < 0xC000 then r.bank[7].toNat % 64
              else if a.toNat < 0xE000 then (if r.bankSelect.getLsbD 6 then r.bank[6].toNat % 64 else n8 - 2)
              else n8 - 1) →
      (busRead a s).1 = s.cart.prg.read (bank % n8 * 8192 + a.toNat % 8192))

/-- The PPU's address space (rule R350): CHR memory through the boards' windows (rules R434, R446, R455), the nametables
through the mirroring (rules R351, R425, R444, R456), and the palette (rule R352). -/
def Obligations.PpuAddressSpace : Prop :=
  ∀ (c : Cart) (m : Mapper) (p : Ppu) (a : BitVec 14),
    (a.toNat < 0x2000 →
      (m = .nrom → ppuPeek c m p a = c.chr.read a.toNat) ∧
      (∀ r, m = .mmc1 r → ppuPeek c m p a = c.chr.read
        ((if r.control.getLsbD 4 = false then r.chr0.toNat / 2 * 8192 + a.toNat
          else if a.toNat < 0x1000 then r.chr0.toNat * 4096 + a.toNat
          else r.chr1.toNat * 4096 + (a.toNat - 0x1000)) % c.chrLen)) ∧
      (∀ r, m = .mmc3 r → ∀ k bank : Nat,
        k = (if r.bankSelect.getLsbD 7 then (a.toNat / 1024 + 4) % 8 else a.toNat / 1024) →
        bank = (match k with
                | 0 => r.bank[0].toNat / 2 * 2
                | 1 => r.bank[0].toNat / 2 * 2 + 1
                | 2 => r.bank[1].toNat / 2 * 2
                | 3 => r.bank[1].toNat / 2 * 2 + 1
                | 4 => r.bank[2].toNat
                | 5 => r.bank[3].toNat
                | 6 => r.bank[4].toNat
                | _ => r.bank[5].toNat) →
        ppuPeek c m p a = c.chr.read (bank % (c.chrLen / 1024) * 1024 + a.toNat % 1024))) ∧
    (0x2000 ≤ a.toNat → a.toNat < 0x3F00 → ∀ n page : Nat, n = a.toNat / 1024 % 4 →
      page = (match mapperMirroring c m with
              | .horizontal => n / 2
              | .vertical => n % 2
              | .singleLow => 0
              | .singleHigh => 1
              | .fourScreen => n) →
      ppuPeek c m p a = p.vram.read (page * 1024 + a.toNat % 1024)) ∧
    (0x3F00 ≤ a.toNat → ppuPeek c m p a = p.palette.read
      (if a.toNat % 32 = 16 ∨ a.toNat % 32 = 20 ∨ a.toNat % 32 = 24 ∨ a.toNat % 32 = 28 then a.toNat % 16
       else a.toNat % 32)) ∧
    mapperMirroring c .nrom = (match c.mirroring with
      | .horizontal => .horizontal
      | .vertical => .vertical
      | .fourScreen => .fourScreen) ∧
    (∀ r, mapperMirroring c (.mmc1 r) = (match r.control.toNat % 4 with
      | 0 => .singleLow
      | 1 => .singleHigh
      | 2 => .vertical
      | _ => .horizontal)) ∧
    (∀ r, mapperMirroring c (.mmc3 r) = (match c.mirroring with
      | .fourScreen => .fourScreen
      | _ => if r.mirror.toNat = 0 then .vertical else .horizontal))

/-- Writes to $8000 and above: nothing on NROM (rule R433); on MMC3 the register that the range and the lowest address bit
select (rule R452). -/
def Obligations.BoardRegisterWrites : Prop :=
  ∀ (s : State) (a : Addr) (v : Byte), 0x8000 ≤ a.toNat →
    (s.mapper = .nrom → busWrite a v s = { s with busLast := v }) ∧
    (∀ r, s.mapper = .mmc3 r → busWrite a v s =
      { s with
        busLast := v
        mapper := .mmc3
          (if a.toNat < 0xA000 then
            if a.toNat % 2 = 0 then { r with bankSelect := v }
            else { r with bank := r.bank.setIfInBounds (r.bankSelect.toNat % 8) v }
          else if a.toNat < 0xC000 then
            if a.toNat % 2 = 0 then { r with mirror := BitVec.ofNat 1 v.toNat } else { r with ramProtect := v }
          else if a.toNat < 0xE000 then
            if a.toNat % 2 = 0 then { r with irqLatch := v } else { r with irqCounter := 0#8, irqReload := true }
          else if a.toNat % 2 = 0 then { r with irqEnable := false, irqPending := false }
          else { r with irqEnable := true }) })

/-- MMC1's serial register (rule R442). One write with bit 7 clear shifts its low bit in; the fifth also loads the register
its address selects and empties the serial register, the first four change no bank register; a write with bit 7 set
empties it. So, from an empty register, five writes load their low bits, the first written lowest, into the register that
the fifth address selects. -/
def Obligations.FiveWritesLoadAnMmc1Register : Prop :=
  ∀ (s : State) (r : Mmc1), s.mapper = .mmc1 r →
    (∀ (a : Addr) (v : Byte) (w : BitVec 5), 0x8000 ≤ a.toNat → v.toNat < 128 → r.cnt ≤ 4 →
      w = BitVec.ofNat 5 (r.sr.toNat / 2 + 16 * (v.toNat % 2)) →
      busWrite a v s =
        { s with
          busLast := v
          mapper := .mmc1
            (if r.cnt < 4 then { r with sr := w, cnt := r.cnt + 1 }
             else if a.toNat < 0xA000 then { r with sr := 0#5, cnt := 0, control := w }
             else if a.toNat < 0xC000 then { r with sr := 0#5, cnt := 0, chr0 := w }
             else if a.toNat < 0xE000 then { r with sr := 0#5, cnt := 0, chr1 := w }
             else { r with sr := 0#5, cnt := 0, prgbank := w }) }) ∧
    (∀ (a : Addr) (v : Byte), 0x8000 ≤ a.toNat → 128 ≤ v.toNat →
      busWrite a v s =
        { s with
          busLast := v
          mapper := .mmc1 { r with sr := 0#5, cnt := 0, control := r.control ||| 0x0C#5 } }) ∧
    (∀ (a1 a2 a3 a4 a5 : Addr) (v1 v2 v3 v4 v5 : Byte) (w : BitVec 5), r.cnt = 0 →
      (∀ a ∈ [a1, a2, a3, a4, a5], 0x8000 ≤ a.toNat) → (∀ v ∈ [v1, v2, v3, v4, v5], v.toNat < 128) →
      w.toNat = v1.toNat % 2 + 2 * (v2.toNat % 2) + 4 * (v3.toNat % 2) + 8 * (v4.toNat % 2) + 16 * (v5.toNat % 2) →
      (busWrite a5 v5 (busWrite a4 v4 (busWrite a3 v3 (busWrite a2 v2 (busWrite a1 v1 s))))).mapper = .mmc1
        (if a5.toNat < 0xA000 then { r with sr := 0#5, cnt := 0, control := w }
         else if a5.toNat < 0xC000 then { r with sr := 0#5, cnt := 0, chr0 := w }
         else if a5.toNat < 0xE000 then { r with sr := 0#5, cnt := 0, chr1 := w }
         else { r with sr := 0#5, cnt := 0, prgbank := w }))

/-- What each board makes of an address notification and what it drives on the IRQ line (rules R424, R426, R447): NROM and
MMC1 nothing. MMC3's A12 filter and scanline counter (rules R458 to R461): a rise of A12 clocks the counter only
after the line has been low for the filter's time, a level that does not change does nothing, and no notification withdraws the IRQ; after N
is written to the latch, a reload and an enable, the line is asserted at the (N+1)-th counted rise and not before. -/
def Obligations.Mmc3ScanlineCounter : Prop :=
  (∀ (filter now : Nat) (a : BitVec 14),
    Mapper.nrom.notify filter a now = .nrom ∧ Mapper.nrom.irqPending = false ∧
    (∀ r, (Mapper.mmc1 r).notify filter a now = .mmc1 r ∧ (Mapper.mmc1 r).irqPending = false) ∧
    (∀ r, (Mapper.mmc3 r).notify filter a now = .mmc3 (mmc3Notify filter r a now) ∧
      (Mapper.mmc3 r).irqPending = r.irqPending)) ∧
  (∀ r : Mmc3, ∀ n : Byte, n = (if r.irqCounter = 0#8 ∨ r.irqReload = true then r.irqLatch else r.irqCounter - 1#8) →
    mmc3ClockCounter r =
      { r with irqCounter := n, irqReload := false, irqPending := r.irqPending || (n == 0#8 && r.irqEnable) }) ∧
  (∀ (filter now : Nat) (r : Mmc3) (a : BitVec 14), r.a12LowSince ≤ now →
    (a.getLsbD 12 = r.a12 → mmc3Notify filter r a now = r) ∧
    (a.getLsbD 12 = false → r.a12 = true → mmc3Notify filter r a now = { r with a12 := false, a12LowSince := now }) ∧
    (a.getLsbD 12 = true → r.a12 = false → r.a12LowSince + filter ≤ now →
      mmc3Notify filter r a now = { mmc3ClockCounter r with a12 := true }) ∧
    (a.getLsbD 12 = true → r.a12 = false → now < r.a12LowSince + filter →
      mmc3Notify filter r a now = { r with a12 := true }) ∧
    (r.irqPending = true → (mmc3Notify filter r a now).irqPending = true)) ∧
  (∀ (s : State) (r : Mmc3) (n b c : Byte), s.mapper = .mmc3 r → r.irqPending = false →
    ∃ r', (busWrite 0xE001#16 c (busWrite 0xC001#16 b (busWrite 0xC000#16 n s))).mapper = .mmc3 r' ∧
      ∀ k, k ≤ n.toNat + 1 → ((Nat.repeat mmc3ClockCounter k r').irqPending = true ↔ k = n.toNat + 1))

/-! ### I/O (spec/63_io_and_scheduler.md sections 1 and 2) -/

/-- OAM DMA (rules R478, R479), from any page, registers included: 256 bus reads in ascending address order, each byte
stored into OAM from `oamaddr` on, wrapping, before the next is read; the cost is 513 cycles, and one more when the
instruction began at an odd cycle. From a page of memory (RAM, PRG RAM while it is readable, PRG ROM) OAM then holds that
page and nothing else but `bus.last` has changed; from a page where nothing answers, the open bus, which is the page
number itself. -/
def Obligations.OamDmaCopiesAPage : Prop :=
  ∀ (s : State) (page : Byte),
    (∀ m : Nat → State, m 0 = { s with busLast := page } →
      (∀ i, i < 256 → ∀ (b : Byte) (u : State), busRead (BitVec.ofNat 16 (256 * page.toNat + i)) (m i) = (b, u) →
        m (i + 1) =
          { u with ppu := { u.ppu with oam := u.ppu.oam.write ((u.ppu.oamaddr.toNat + i) % 256) b } }) →
      (m 256).ppu.oamaddr = s.ppu.oamaddr ∧
      busWrite 0x4014#16 page s = { m 256 with cyc := s.cyc + 513 + s.cyc % 2 }) ∧
    (s.ppu.oam.wf 256 = true →
      (page.toNat < 0x20 ∨ 0x80 ≤ page.toNat ∨ (0x60 ≤ page.toNat ∧ s.mapper.ramReadable = true) →
        ∃ oam : Memory, oam.wf 256 = true ∧
          (∀ i, i < 256 → some (oam.read ((s.ppu.oamaddr.toNat + i) % 256)) =
            s.byteAt (BitVec.ofNat 16 (256 * page.toNat + i))) ∧
          busWrite 0x4014#16 page s =
            { s with
              busLast := oam.read ((s.ppu.oamaddr.toNat + 255) % 256)
              ppu := { s.ppu with oam := oam }
              cyc := s.cyc + 513 + s.cyc % 2 }) ∧
      ((0x41 ≤ page.toNat ∧ page.toNat < 0x60) ∨
          (0x60 ≤ page.toNat ∧ page.toNat < 0x80 ∧ s.mapper.ramReadable = false) →
        ∃ oam : Memory, oam.wf 256 = true ∧ (∀ i, i < 256 → oam.read i = page) ∧
          busWrite 0x4014#16 page s =
            { s with busLast := page, ppu := { s.ppu with oam := oam }, cyc := s.cyc + 513 + s.cyc % 2 }))

/-- The controller ports (rules R473 to R475). A write to $4016 latches the buttons of both where it strobes or the strobe
was set; a read gives one bit under the open bus's upper three, and shifts a one in where the strobe is clear, of its own
port alone. So after 1 and then 0 is written to $4016, eight reads give the buttons in the order of their bits, and every
later read gives 1. -/
def Obligations.ControllerReadsGiveTheButtonsInOrder : Prop :=
  ∀ (s t : State) (v b : Byte), t = busWrite 0x4016#16 0#8 (busWrite 0x4016#16 1#8 s) →
    (∀ k : Nat,
      ((busRead 0x4016#16 (Nat.repeat (fun u => (busRead 0x4016#16 u).2) k t)).1.getLsbD 0 =
        (if k < 8 then s.ctl0.buttons.getLsbD k else true)) ∧
      ((busRead 0x4017#16 (Nat.repeat (fun u => (busRead 0x4017#16 u).2) k t)).1.getLsbD 0 =
        (if k < 8 then s.ctl1.buttons.getLsbD k else true))) ∧
    busWrite 0x4016#16 v s =
      { s with
        busLast := v
        ctl0 := { s.ctl0 with
          shift := if s.ctl0.strobe || v.getLsbD 0 then s.ctl0.buttons else s.ctl0.shift, strobe := v.getLsbD 0 }
        ctl1 := { s.ctl1 with
          shift := if s.ctl1.strobe || v.getLsbD 0 then s.ctl1.buttons else s.ctl1.shift, strobe := v.getLsbD 0 } } ∧
    (b.toNat = s.busLast.toNat / 32 * 32 + (if s.ctl0.strobe then s.ctl0.buttons else s.ctl0.shift).toNat % 2 →
      busRead 0x4016#16 s = (b,
        { s with
          busLast := b
          ctl0 := { s.ctl0 with
            shift := if s.ctl0.strobe then s.ctl0.shift else BitVec.ofNat 8 (s.ctl0.shift.toNat / 2 + 128) } })) ∧
    (b.toNat = s.busLast.toNat / 32 * 32 + (if s.ctl1.strobe then s.ctl1.buttons else s.ctl1.shift).toNat % 2 →
      busRead 0x4017#16 s = (b,
        { s with
          busLast := b
          ctl1 := { s.ctl1 with
            shift := if s.ctl1.strobe then s.ctl1.shift else BitVec.ofNat 8 (s.ctl1.shift.toNat / 2 + 128) } }))

/-! ### Invariants: each is kept by every step, from every state that has it -/

/-- `ppu.ticks = 3 * cyc` at every boundary (rule R484), and the position stays on the 262 x 341 grid and is what the tick
count says (rules R345, R364). -/
def Obligations.StepKeepsTheClockAndThePosition : Prop :=
  (∀ s t : State, s.clockWf → step s = .next t → t.clockWf) ∧
  (∀ s t : State, s.positionWf → step s = .next t → t.positionWf)

/-- Break stays 0 and Unused stays 1 in the register (rule R28). -/
def Obligations.StepKeepsTheFixedStatusBits : Prop :=
  ∀ s t : State, s.statusWf → step s = .next t → t.statusWf

/-- Every memory keeps its canonical form and its size, and the cartridge keeps its identity. The canonical form, in which
an unlisted cell reads as $00, is the model's choice (log entry 2). -/
def Obligations.StepKeepsMemoriesCanonical : Prop :=
  ∀ s t : State, s.memoryWf → step s = .next t →
    t.memoryWf ∧ t.cart.prg = s.cart.prg ∧ t.cart.prgUnits = s.cart.prgUnits ∧
      t.cart.chrUnits = s.cart.chrUnits ∧ t.cart.mirroring = s.cart.mirroring

/-- Colours stay 6-bit (rules R341, R345), the strobes stay equal (rule R472), the sprite counts stay at most 8 (rule
R345), MMC1's count stays at most 4 (rule R440), and A12's last fall stays in the past (rule R450). -/
def Obligations.StepKeepsDeviceFieldsInRange : Prop :=
  ∀ s t : State, s.memoryWf → s.colourWf → s.deviceWf → s.mapperWf → step s = .next t →
    t.colourWf ∧ t.deviceWf ∧ t.mapperWf

/-- All the invariants hold at `State.reset`, whose memories and cartridge are the model's choice (log entries 2 and 3). -/
def Obligations.ResetStateHasTheInvariants : Prop :=
  State.reset.clockWf ∧ State.reset.positionWf ∧ State.reset.statusWf ∧ State.reset.memoryWf ∧ State.reset.colourWf ∧
    State.reset.deviceWf ∧ State.reset.mapperWf
end

