-- ==== Sys2Proof/Laws/State.lean ====
section
/-! SUPPORT. One lemma per field for each named update of the state, so that no proof unfolds a record update: `mapCpu`,
`charge`, `withVideo`; and the register updates `Cpu.put` and `setNZ`. -/

namespace Sys2Proof.Machine

/-! ### `State.mapCpu` -/

@[simp] theorem State.mapCpu_cpu (f : Cpu → Cpu) (s : State) : (s.mapCpu f).cpu = f s.cpu := rfl
@[simp] theorem State.mapCpu_nmiPending (f : Cpu → Cpu) (s : State) : (s.mapCpu f).nmiPending = s.nmiPending := rfl
@[simp] theorem State.mapCpu_busLast (f : Cpu → Cpu) (s : State) : (s.mapCpu f).busLast = s.busLast := rfl
@[simp] theorem State.mapCpu_cyc (f : Cpu → Cpu) (s : State) : (s.mapCpu f).cyc = s.cyc := rfl
@[simp] theorem State.mapCpu_ram (f : Cpu → Cpu) (s : State) : (s.mapCpu f).ram = s.ram := rfl
@[simp] theorem State.mapCpu_ppu (f : Cpu → Cpu) (s : State) : (s.mapCpu f).ppu = s.ppu := rfl
@[simp] theorem State.mapCpu_cart (f : Cpu → Cpu) (s : State) : (s.mapCpu f).cart = s.cart := rfl
@[simp] theorem State.mapCpu_mapper (f : Cpu → Cpu) (s : State) : (s.mapCpu f).mapper = s.mapper := rfl
@[simp] theorem State.mapCpu_ctl0 (f : Cpu → Cpu) (s : State) : (s.mapCpu f).ctl0 = s.ctl0 := rfl
@[simp] theorem State.mapCpu_ctl1 (f : Cpu → Cpu) (s : State) : (s.mapCpu f).ctl1 = s.ctl1 := rfl
@[simp] theorem State.mapCpu_params (f : Cpu → Cpu) (s : State) : (s.mapCpu f).params = s.params := rfl
@[simp] theorem State.mapCpu_host (f : Cpu → Cpu) (s : State) : (s.mapCpu f).host = s.host := rfl

/-! ### `State.charge` -/

@[simp] theorem State.charge_cpu (n : Nat) (s : State) : (s.charge n).cpu = s.cpu := rfl
@[simp] theorem State.charge_nmiPending (n : Nat) (s : State) : (s.charge n).nmiPending = s.nmiPending := rfl
@[simp] theorem State.charge_busLast (n : Nat) (s : State) : (s.charge n).busLast = s.busLast := rfl
@[simp] theorem State.charge_cyc (n : Nat) (s : State) : (s.charge n).cyc = s.cyc + n := rfl
@[simp] theorem State.charge_ram (n : Nat) (s : State) : (s.charge n).ram = s.ram := rfl
@[simp] theorem State.charge_ppu (n : Nat) (s : State) : (s.charge n).ppu = s.ppu := rfl
@[simp] theorem State.charge_cart (n : Nat) (s : State) : (s.charge n).cart = s.cart := rfl
@[simp] theorem State.charge_mapper (n : Nat) (s : State) : (s.charge n).mapper = s.mapper := rfl
@[simp] theorem State.charge_ctl0 (n : Nat) (s : State) : (s.charge n).ctl0 = s.ctl0 := rfl
@[simp] theorem State.charge_ctl1 (n : Nat) (s : State) : (s.charge n).ctl1 = s.ctl1 := rfl
@[simp] theorem State.charge_params (n : Nat) (s : State) : (s.charge n).params = s.params := rfl
@[simp] theorem State.charge_host (n : Nat) (s : State) : (s.charge n).host = s.host := rfl

/-! ### `State.video` and `State.withVideo` -/

@[simp] theorem State.withVideo_cpu (s : State) (v : Video) : (s.withVideo v).cpu = s.cpu := rfl
@[simp] theorem State.withVideo_nmiPending (s : State) (v : Video) : (s.withVideo v).nmiPending = v.nmi := rfl
@[simp] theorem State.withVideo_busLast (s : State) (v : Video) : (s.withVideo v).busLast = s.busLast := rfl
@[simp] theorem State.withVideo_cyc (s : State) (v : Video) : (s.withVideo v).cyc = s.cyc := rfl
@[simp] theorem State.withVideo_ram (s : State) (v : Video) : (s.withVideo v).ram = s.ram := rfl
@[simp] theorem State.withVideo_ppu (s : State) (v : Video) : (s.withVideo v).ppu = v.ppu := rfl
@[simp] theorem State.withVideo_cart (s : State) (v : Video) : (s.withVideo v).cart = s.cart := rfl
@[simp] theorem State.withVideo_mapper (s : State) (v : Video) : (s.withVideo v).mapper = v.mapper := rfl
@[simp] theorem State.withVideo_ctl0 (s : State) (v : Video) : (s.withVideo v).ctl0 = s.ctl0 := rfl
@[simp] theorem State.withVideo_ctl1 (s : State) (v : Video) : (s.withVideo v).ctl1 = s.ctl1 := rfl
@[simp] theorem State.withVideo_params (s : State) (v : Video) : (s.withVideo v).params = s.params := rfl
@[simp] theorem State.withVideo_host (s : State) (v : Video) : (s.withVideo v).host = s.host := rfl
@[simp] theorem State.video_withVideo (s : State) (v : Video) : (s.withVideo v).video = v := rfl
@[simp] theorem State.withVideo_video (s : State) : s.withVideo s.video = s := rfl
@[simp] theorem State.video_ppu (s : State) : s.video.ppu = s.ppu := rfl
@[simp] theorem State.video_mapper (s : State) : s.video.mapper = s.mapper := rfl
@[simp] theorem State.video_nmi (s : State) : s.video.nmi = s.nmiPending := rfl

/-! ### `Cpu.put` and `setNZ` -/

@[simp] theorem Cpu.put_a (f : Flag) (b : Bool) (c : Cpu) : (c.put f b).a = c.a := rfl
@[simp] theorem Cpu.put_x (f : Flag) (b : Bool) (c : Cpu) : (c.put f b).x = c.x := rfl
@[simp] theorem Cpu.put_y (f : Flag) (b : Bool) (c : Cpu) : (c.put f b).y = c.y := rfl
@[simp] theorem Cpu.put_sp (f : Flag) (b : Bool) (c : Cpu) : (c.put f b).sp = c.sp := rfl
@[simp] theorem Cpu.put_pc (f : Flag) (b : Bool) (c : Cpu) : (c.put f b).pc = c.pc := rfl
@[simp] theorem Cpu.put_p (f : Flag) (b : Bool) (c : Cpu) : (c.put f b).p = putFlag f b c.p := rfl
@[simp] theorem setNZ_a (v : Byte) (c : Cpu) : (setNZ v c).a = c.a := rfl
@[simp] theorem setNZ_x (v : Byte) (c : Cpu) : (setNZ v c).x = c.x := rfl
@[simp] theorem setNZ_y (v : Byte) (c : Cpu) : (setNZ v c).y = c.y := rfl
@[simp] theorem setNZ_sp (v : Byte) (c : Cpu) : (setNZ v c).sp = c.sp := rfl
@[simp] theorem setNZ_pc (v : Byte) (c : Cpu) : (setNZ v c).pc = c.pc := rfl
@[simp] theorem setNZ_p (v : Byte) (c : Cpu) :
    (setNZ v c).p = putFlag .N (v.getLsbD 7) (putFlag .Z (decide (v = 0#8)) c.p) := rfl

end Sys2Proof.Machine
end

