-- ==== Sys2Proof/Laws/Bus.lean ====
section
/-! SUPPORT. What a bus read and a bus write can change, said once, and the explicit equations of the accesses to RAM,
to the cartridge and to the stack. -/

namespace Sys2Proof.Machine

/-! ### Reads -/

/-- Everything a bus read can do: it drives the bus, and may change the PPU's `vblank`, `w`, `v` and `readbuf`, the
mapper, `nmi_pending` and the two controllers. -/
theorem busRead_cases (a : Addr) (s : State) :
    ∃ b vb w v rb m n c0 c1, (busRead a s).2 =
      { s with busLast := b, ppu := { s.ppu with vblank := vb, w := w, v := v, readbuf := rb },
               mapper := m, nmiPending := n, ctl0 := c0, ctl1 := c1 } := by
  unfold busRead busReadRaw
  split
  · exact ⟨_, _, _, _, _, _, _, _, _, rfl⟩
  · split
    · unfold ppuRegRead
      split
      · exact ⟨_, _, _, _, _, _, _, _, _, rfl⟩
      · exact ⟨_, _, _, _, _, _, _, _, _, rfl⟩
      · unfold readData
        dsimp only
        split <;> exact ⟨_, _, _, _, _, _, _, _, _, rfl⟩
      · exact ⟨_, _, _, _, _, _, _, _, _, rfl⟩
    · split
      · unfold ioRead
        split
        · exact ⟨_, _, _, _, _, _, _, _, _, rfl⟩
        · split <;> exact ⟨_, _, _, _, _, _, _, _, _, rfl⟩
      · split <;> exact ⟨_, _, _, _, _, _, _, _, _, rfl⟩

@[simp] theorem busRead_cpu (a : Addr) (s : State) : (busRead a s).2.cpu = s.cpu := by
  obtain ⟨_, _, _, _, _, _, _, _, _, h⟩ := busRead_cases a s; rw [h]
@[simp] theorem busRead_cyc (a : Addr) (s : State) : (busRead a s).2.cyc = s.cyc := by
  obtain ⟨_, _, _, _, _, _, _, _, _, h⟩ := busRead_cases a s; rw [h]
@[simp] theorem busRead_ram (a : Addr) (s : State) : (busRead a s).2.ram = s.ram := by
  obtain ⟨_, _, _, _, _, _, _, _, _, h⟩ := busRead_cases a s; rw [h]
@[simp] theorem busRead_cart (a : Addr) (s : State) : (busRead a s).2.cart = s.cart := by
  obtain ⟨_, _, _, _, _, _, _, _, _, h⟩ := busRead_cases a s; rw [h]
@[simp] theorem busRead_params (a : Addr) (s : State) : (busRead a s).2.params = s.params := by
  obtain ⟨_, _, _, _, _, _, _, _, _, h⟩ := busRead_cases a s; rw [h]
@[simp] theorem busRead_host (a : Addr) (s : State) : (busRead a s).2.host = s.host := by
  obtain ⟨_, _, _, _, _, _, _, _, _, h⟩ := busRead_cases a s; rw [h]
@[simp] theorem busRead_busLast (a : Addr) (s : State) : (busRead a s).2.busLast = (busRead a s).1 := rfl

/-- The PPU fields a bus read never changes. -/
theorem busRead_ppu (a : Addr) (s : State) : ∃ vb w v rb, (busRead a s).2.ppu =
    { s.ppu with vblank := vb, w := w, v := v, readbuf := rb } := by
  obtain ⟨_, vb, w, v, rb, _, _, _, _, h⟩ := busRead_cases a s
  exact ⟨vb, w, v, rb, by rw [h]⟩

/-- A read of RAM (rule R65). -/
theorem busRead_of_ram {a : Addr} (h : a.toNat < 0x2000) (s : State) :
    busRead a s = (s.ram.read (ramIndex a), { s with busLast := s.ram.read (ramIndex a) }) := by
  simp [busRead, busReadRaw, h]

/-- A read of cartridge space (rules R69, R427). -/
theorem busRead_of_cart {a : Addr} (h : 0x4020 ≤ a.toNat) (s : State) :
    busRead a s = (mapperCpuRead s.cart s.mapper s.busLast a,
      { s with busLast := mapperCpuRead s.cart s.mapper s.busLast a }) := by
  have h1 : ¬ a.toNat < 0x2000 := by omega
  have h2 : ¬ a.toNat < 0x4000 := by omega
  have h3 : ¬ a.toNat < 0x4018 := by omega
  have h4 : ¬ a.toNat < 0x4020 := by omega
  simp [busRead, busReadRaw, h1, h2, h3, h4]

/-- A read of PRG ROM (rule R427). -/
theorem busRead_of_rom {a : Addr} (h : 0x8000 ≤ a.toNat) (s : State) :
    busRead a s = (s.cart.prg.read (prgOffset s.cart s.mapper a),
      { s with busLast := s.cart.prg.read (prgOffset s.cart s.mapper a) }) := by
  have h1 : ¬ a.toNat < 0x6000 := by omega
  have h2 : ¬ a.toNat < 0x8000 := by omega
  rw [busRead_of_cart (by omega)]
  simp [mapperCpuRead, h1, h2]

/-- Two reads in a row change no more than one does. -/
@[simp] theorem busRead16_cpu (a b : Addr) (s : State) : (busRead16 a b s).2.cpu = s.cpu := by simp [busRead16]
@[simp] theorem busRead16_cyc (a b : Addr) (s : State) : (busRead16 a b s).2.cyc = s.cyc := by simp [busRead16]
@[simp] theorem busRead16_ram (a b : Addr) (s : State) : (busRead16 a b s).2.ram = s.ram := by simp [busRead16]
@[simp] theorem busRead16_cart (a b : Addr) (s : State) : (busRead16 a b s).2.cart = s.cart := by simp [busRead16]
@[simp] theorem busRead16_params (a b : Addr) (s : State) : (busRead16 a b s).2.params = s.params := by simp [busRead16]
@[simp] theorem busRead16_host (a b : Addr) (s : State) : (busRead16 a b s).2.host = s.host := by simp [busRead16]

/-! ### OAM DMA -/

/-- A property that every bus read and every OAM store keeps is kept by the DMA copy. -/
theorem dmaCopy_induction (P : State → Prop) (page : Byte)
    (hread : ∀ a s, P s → P (busRead a s).2)
    (hoam : ∀ s i b, P s → P { s with ppu := { s.ppu with oam := s.ppu.oam.write ((s.ppu.oamaddr.toNat + i) % 256) b } })
    (s : State) (h : P s) : P (dmaCopy page s) := by
  unfold dmaCopy
  generalize List.range 256 = l
  induction l generalizing s with
  | nil => exact h
  | cons i l ih => exact ih _ (hoam _ i _ (hread _ s h))

/-- What a DMA copy leaves alone. -/
theorem dmaCopy_frame (page : Byte) (s : State) :
    (dmaCopy page s).cpu = s.cpu ∧ (dmaCopy page s).cyc = s.cyc ∧ (dmaCopy page s).ram = s.ram ∧
      (dmaCopy page s).cart = s.cart ∧ (dmaCopy page s).params = s.params ∧ (dmaCopy page s).host = s.host := by
  refine dmaCopy_induction
    (fun t => t.cpu = s.cpu ∧ t.cyc = s.cyc ∧ t.ram = s.ram ∧ t.cart = s.cart ∧ t.params = s.params ∧ t.host = s.host)
    page ?_ ?_ s ⟨rfl, rfl, rfl, rfl, rfl, rfl⟩
  · intro a t h
    simpa using h
  · intro t i b h
    exact h

/-! ### Writes -/

/-- A property kept by each primitive effect of a bus write is kept by a bus write. -/
theorem busWrite_induction (P : State → Prop) (a : Addr) (v : Byte)
    (hbus : ∀ s b, P s → P { s with busLast := b })
    (hram : ∀ s i b, i < 2048 → P s → P { s with ram := s.ram.write i b })
    (hreg : ∀ n s, P s → P (ppuRegWrite n v s))
    (hdma : ∀ s, P s → P (oamDma v s))
    (hctl : ∀ s, P s → P { s with ctl0 := s.ctl0.write v, ctl1 := s.ctl1.write v })
    (hcart : ∀ s, P s → P { s with cart := cartCpuWrite s.cart s.mapper a v, mapper := mapperCpuWrite s.mapper a v })
    (s : State) (h : P s) : P (busWrite a v s) := by
  have h0 := hbus s v h
  unfold busWrite
  split
  · exact hram _ _ _ (Nat.mod_lt _ (by decide)) h0
  · split
    · exact hreg _ _ h0
    · split
      · unfold ioWrite
        split
        · exact hdma _ h0
        · split
          · exact hctl _ h0
          · exact h0
      · split
        · exact h0
        · exact hcart _ h0

theorem ppuRegWrite_frame (n : Nat) (v : Byte) (s : State) :
    (ppuRegWrite n v s).cpu = s.cpu ∧ (ppuRegWrite n v s).cyc = s.cyc ∧ (ppuRegWrite n v s).ram = s.ram ∧
      (ppuRegWrite n v s).params = s.params ∧ (ppuRegWrite n v s).host = s.host := by
  unfold ppuRegWrite
  split <;> (try exact ⟨rfl, rfl, rfl, rfl, rfl⟩)
  · unfold writeAddr
    split <;> exact ⟨rfl, rfl, rfl, rfl, rfl⟩
  · unfold writeData State.ppuWrite
    dsimp only
    split
    · exact ⟨rfl, rfl, rfl, rfl, rfl⟩
    · split <;> exact ⟨rfl, rfl, rfl, rfl, rfl⟩

@[simp] theorem busWrite_cpu (a : Addr) (v : Byte) (s : State) : (busWrite a v s).cpu = s.cpu := by
  refine busWrite_induction (fun t => t.cpu = s.cpu) a v ?_ ?_ ?_ ?_ ?_ ?_ s rfl
  · exact fun _ _ h => h
  · exact fun _ _ _ _ h => h
  · exact fun n t h => (ppuRegWrite_frame n v t).1.trans h
  · exact fun t h => (dmaCopy_frame v t).1.trans h
  · exact fun _ h => h
  · exact fun _ h => h
@[simp] theorem busWrite_params (a : Addr) (v : Byte) (s : State) : (busWrite a v s).params = s.params := by
  refine busWrite_induction (fun t => t.params = s.params) a v ?_ ?_ ?_ ?_ ?_ ?_ s rfl
  · exact fun _ _ h => h
  · exact fun _ _ _ _ h => h
  · exact fun n t h => (ppuRegWrite_frame n v t).2.2.2.1.trans h
  · exact fun t h => (dmaCopy_frame v t).2.2.2.2.1.trans h
  · exact fun _ h => h
  · exact fun _ h => h
@[simp] theorem busWrite_host (a : Addr) (v : Byte) (s : State) : (busWrite a v s).host = s.host := by
  refine busWrite_induction (fun t => t.host = s.host) a v ?_ ?_ ?_ ?_ ?_ ?_ s rfl
  · exact fun _ _ h => h
  · exact fun _ _ _ _ h => h
  · exact fun n t h => (ppuRegWrite_frame n v t).2.2.2.2.trans h
  · exact fun t h => (dmaCopy_frame v t).2.2.2.2.2.trans h
  · exact fun _ h => h
  · exact fun _ h => h

/-- The total-cycle counter after a bus write: only a write to $4014 moves it (rule R479). -/
theorem busWrite_cyc (a : Addr) (v : Byte) (s : State) :
    (busWrite a v s).cyc = s.cyc + if a = 0x4014#16 then dmaCost s.cyc else 0 := by
  unfold busWrite
  dsimp only
  split
  · rename_i h
    rw [if_neg (by rintro rfl; simp at h)]; rfl
  · split
    · rename_i h
      rw [if_neg (by rintro rfl; simp at h)]
      exact (ppuRegWrite_frame _ _ _).2.1
    · split
      · unfold ioWrite
        split
        · exact congrArg (· + dmaCost s.cyc) (dmaCopy_frame v _).2.1
        · split <;> rfl
      · rename_i h
        have ha : a ≠ 0x4014#16 := by rintro rfl; exact h (by decide)
        rw [if_neg ha]
        split <;> rfl

/-- A write to RAM (rule R65). -/
theorem busWrite_of_ram {a : Addr} (h : a.toNat < 0x2000) (v : Byte) (s : State) :
    busWrite a v s = { s with busLast := v, ram := s.ram.write (ramIndex a) v } := by
  simp [busWrite, h]

/-! ### The stack is RAM (rule R21) -/

theorem stackAddr_toNat (sp : Byte) : (stackAddr sp).toNat = 256 + sp.toNat := by
  have h := sp.isLt
  simp only [stackAddr, BitVec.toNat_append]
  rw [← Nat.shiftLeft_add_eq_or_of_lt h]
  rfl

theorem ramIndex_stackAddr (sp : Byte) : ramIndex (stackAddr sp) = 256 + sp.toNat := by
  have h := sp.isLt
  rw [ramIndex, stackAddr_toNat]
  omega

/-- A push, in full. -/
theorem push_eq (v : Byte) (s : State) : push v s =
    { s with busLast := v, ram := s.ram.write (256 + s.cpu.sp.toNat) v, cpu := { s.cpu with sp := s.cpu.sp - 1#8 } } := by
  have h := s.cpu.sp.isLt
  rw [push, busWrite_of_ram (by rw [stackAddr_toNat]; omega), ramIndex_stackAddr]
  rfl

/-- A pull, in full. -/
theorem pull_eq (s : State) : pull s =
    (s.ram.read (256 + (s.cpu.sp + 1#8).toNat),
      { s with busLast := s.ram.read (256 + (s.cpu.sp + 1#8).toNat), cpu := { s.cpu with sp := s.cpu.sp + 1#8 } }) := by
  have h := (s.cpu.sp + 1#8).isLt
  unfold pull
  dsimp only
  rw [busRead_of_ram (by rw [stackAddr_toNat]; simp only [State.mapCpu_cpu]; omega), ramIndex_stackAddr]
  rfl

/-- Loading PC from a vector, in full. -/
theorem loadPc_eq {vector : Addr} (h : 0x8000 ≤ vector.toNat) (h' : 0x8000 ≤ (vector + 1#16).toNat) (s : State) :
    loadPc vector s =
      { s with
        busLast := s.cart.prg.read (prgOffset s.cart s.mapper (vector + 1#16))
        cpu := { s.cpu with
          pc := wordOf (s.cart.prg.read (prgOffset s.cart s.mapper (vector + 1#16)))
            (s.cart.prg.read (prgOffset s.cart s.mapper vector)) } } := by
  simp only [loadPc, busRead16, busRead_of_rom h, busRead_of_rom h']
  rfl

end Sys2Proof.Machine
end

