-- ==== Sys2Proof/Laws/Decode.lean ====
section
/-! SUPPORT. Assembling and splitting a 16-bit value. -/

namespace Sys2Proof

theorem wordOf_hiByte_loByte (a : Addr) : wordOf (hiByte a) (loByte a) = a := by
  apply BitVec.eq_of_getLsbD_eq
  intro i hi
  simp only [wordOf, hiByte, loByte, BitVec.getLsbD_append, BitVec.getLsbD_extractLsb']
  by_cases h : i < 8
  · simp [h]
  · simp only [h, if_false]
    rw [show 8 + (i - 8) = i by omega]
    simp [show i - 8 < 8 by omega]

theorem loByte_wordOf (hi lo : Byte) : loByte (wordOf hi lo) = lo := by
  apply BitVec.eq_of_getLsbD_eq
  intro i h
  simp only [wordOf, loByte, BitVec.getLsbD_append, BitVec.getLsbD_extractLsb', h]
  simp [h]

theorem hiByte_wordOf (hi lo : Byte) : hiByte (wordOf hi lo) = hi := by
  apply BitVec.eq_of_getLsbD_eq
  intro i h
  simp only [wordOf, hiByte, BitVec.getLsbD_append, BitVec.getLsbD_extractLsb', h]
  simp

end Sys2Proof
end

