-- ==== Sys2Proof/Laws/Memory.lean ====
section
/-! SUPPORT. The laws of a memory: a read after a write, and that `Memory.write` and `Memory.ofCells` keep the
canonical form. -/

namespace Sys2Proof

/-- Reading where a byte was stored gives that byte. -/
theorem Memory.read_write_same (m : Memory) (size lo i : Nat) (v : Byte) (h : m.wfFrom size lo = true) :
    (m.write i v).read i = v := by
  induction m generalizing lo with
  | nil => by_cases hv : v = blank <;> simp [write, read, hv]
  | cons c m ih =>
    obtain ⟨j, u⟩ := c
    simp only [wfFrom, Bool.and_eq_true, decide_eq_true_eq] at h
    have gap : ∀ (m : Memory) (lo : Nat), m.wfFrom size lo = true → i < lo → m.read i = blank := by
      intro m
      induction m with
      | nil => intro _ _ _; rfl
      | cons d m ih =>
        intro lo h hi
        obtain ⟨k, w⟩ := d
        simp only [wfFrom, Bool.and_eq_true, decide_eq_true_eq] at h
        simp only [read, if_neg (show ¬ i = k by omega)]
        exact ih _ h.2 (by omega)
    by_cases hij : i < j
    · by_cases hv : v = blank
      · simp only [write, if_pos hij, if_pos hv, read, if_neg (show ¬ i = j by omega)]
        rw [gap m _ h.2 (by omega), hv]
      · simp [write, hij, hv, read]
    · by_cases he : i = j
      · by_cases hv : v = blank
        · subst he
          simp only [write, if_neg hij, if_true, if_pos hv]
          rw [gap m _ h.2 (by omega), hv]
        · simp [write, he, hv, read]
      · simp only [write, if_neg hij, if_neg he, read]
        exact ih _ h.2

/-- Reading elsewhere gives what it gave before. -/
theorem Memory.read_write_other (m : Memory) (i k : Nat) (v : Byte) (h : k ≠ i) : (m.write i v).read k = m.read k := by
  induction m with
  | nil => by_cases hv : v = blank <;> simp [write, read, hv, h]
  | cons c m ih =>
    obtain ⟨j, u⟩ := c
    simp only [write]
    split <;> (try split) <;> (try split) <;> simp_all [read]

/-- A lower bound may be lowered. -/
theorem Memory.wfFrom_mono {size lo lo' : Nat} {m : Memory} (h : m.wfFrom size lo = true) (hl : lo' ≤ lo) :
    m.wfFrom size lo' = true := by
  cases m with
  | nil => rfl
  | cons c m =>
    simp only [wfFrom, Bool.and_eq_true, decide_eq_true_eq] at h ⊢
    exact ⟨⟨⟨by omega, h.1.1.2⟩, h.1.2⟩, h.2⟩

/-- A write keeps the canonical form, above any bound it respects. -/
theorem Memory.wfFrom_write {size lo : Nat} {m : Memory} (i : Nat) (v : Byte) (h : m.wfFrom size lo = true)
    (hl : lo ≤ i) (hi : i < size) : (m.write i v).wfFrom size lo = true := by
  induction m generalizing lo with
  | nil => by_cases hv : v = blank <;> simp [write, wfFrom, hv, hl, hi]
  | cons c m ih =>
    obtain ⟨j, u⟩ := c
    have h' := h
    simp only [wfFrom, Bool.and_eq_true, decide_eq_true_eq, bne_iff_ne] at h'
    obtain ⟨⟨⟨h1, h2⟩, h3⟩, h4⟩ := h'
    simp only [write]
    split
    · split
      · exact h
      · rename_i hv
        simp only [wfFrom, Bool.and_eq_true, decide_eq_true_eq, bne_iff_ne]
        exact ⟨⟨⟨hl, hi⟩, hv⟩, ⟨⟨by omega, h2⟩, h3⟩, h4⟩
    · split
      · split
        · exact wfFrom_mono h4 (by omega)
        · rename_i hv
          subst_vars
          simp only [wfFrom, Bool.and_eq_true, decide_eq_true_eq, bne_iff_ne]
          exact ⟨⟨⟨hl, hi⟩, hv⟩, h4⟩
      · simp only [wfFrom, Bool.and_eq_true, decide_eq_true_eq, bne_iff_ne]
        exact ⟨⟨⟨h1, h2⟩, h3⟩, ih h4 (by omega)⟩

/-- A write inside the memory keeps the canonical form. -/
theorem Memory.wf_write {size : Nat} {m : Memory} (i : Nat) (v : Byte) (h : m.wf size = true) (hi : i < size) :
    (m.write i v).wf size = true := wfFrom_write i v h (Nat.zero_le i) hi

/-- `read_write_same` for a canonical memory. -/
theorem Memory.wf_read_write {size : Nat} {m : Memory} (i : Nat) (v : Byte) (h : m.wf size = true) :
    (m.write i v).read i = v := read_write_same m size 0 i v h

/-- The memory described by a list of cells is canonical. -/
theorem Memory.wf_ofCells (size : Nat) (cells : List Host.Cell) : (ofCells size cells).wf size = true := by
  have step : ∀ (l : List Host.Cell) (m : Memory), m.wf size = true →
      Memory.wf size (l.foldl (fun m c => if c.1 < size then Memory.write m c.1 c.2 else m) m) = true := by
    intro l
    induction l with
    | nil => exact fun _ h => h
    | cons c l ih =>
      intro m h
      refine ih _ ?_
      beta_reduce
      split
      · exact wf_write _ _ h (by assumption)
      · exact h
  exact step cells [] rfl

end Sys2Proof
end

