-- ==== Sys2Proof/Laws/Ppu.lean ====
section
/-! SUPPORT. What a PPU tick can change, said once stage by stage; the position after ticks; and that the framebuffer is
written only by the pixel stage. -/

namespace Sys2Proof.Machine

/-- The PPU fields that no stage of a tick writes, once the position has advanced. -/
structure PpuKept (p q : Ppu) : Prop where
  ctrl : q.ctrl = p.ctrl
  mask : q.mask = p.mask
  t : q.t = p.t
  x : q.x = p.x
  w : q.w = p.w
  readbuf : q.readbuf = p.readbuf
  scanline : q.scanline = p.scanline
  dot : q.dot = p.dot
  frame : q.frame = p.frame
  ticks : q.ticks = p.ticks
  vram : q.vram = p.vram
  oam : q.oam = p.oam
  palette : q.palette = p.palette

theorem PpuKept.refl (p : Ppu) : PpuKept p p := ⟨rfl, rfl, rfl, rfl, rfl, rfl, rfl, rfl, rfl, rfl, rfl, rfl, rfl⟩

theorem PpuKept.trans {p q r : Ppu} (h : PpuKept p q) (k : PpuKept q r) : PpuKept p r :=
  ⟨k.ctrl.trans h.ctrl, k.mask.trans h.mask, k.t.trans h.t, k.x.trans h.x, k.w.trans h.w, k.readbuf.trans h.readbuf,
    k.scanline.trans h.scanline, k.dot.trans h.dot, k.frame.trans h.frame, k.ticks.trans h.ticks,
    k.vram.trans h.vram, k.oam.trans h.oam, k.palette.trans h.palette⟩

/-! ### The stages, in the order of rule R388 -/

/-- What a stage that draws no pixel does: it keeps the fields of `PpuKept`, the framebuffer and `nmi`. -/
structure StageKept (s t : Video) : Prop where
  kept : PpuKept s.ppu t.ppu
  framebuffer : t.ppu.framebuffer = s.ppu.framebuffer
  nmi : t.nmi = s.nmi

theorem StageKept.refl (s : Video) : StageKept s s := ⟨.refl _, rfl, rfl⟩

theorem StageKept.trans {s t u : Video} (h : StageKept s t) (k : StageKept t u) : StageKept s u :=
  ⟨h.kept.trans k.kept, k.framebuffer.trans h.framebuffer, k.nmi.trans h.nmi⟩

theorem read_kept (c : Cart) (f : Nat) (a : BitVec 14) (s : Video) : StageKept s (s.read c f a).2 :=
  ⟨by constructor <;> rfl, rfl, rfl⟩

theorem shiftStage_kept (p : Ppu) : PpuKept p (shiftStage p) ∧ (shiftStage p).framebuffer = p.framebuffer := by
  unfold shiftStage
  dsimp only
  split <;> split <;> exact ⟨by constructor <;> rfl, rfl⟩

theorem fetchStage_kept (c : Cart) (f : Nat) (s : Video) : StageKept s (fetchStage c f s) := by
  unfold fetchStage
  dsimp only
  split
  · split
    · exact ⟨by constructor <;> rfl, rfl, rfl⟩
    · split
      · exact ⟨by constructor <;> rfl, rfl, rfl⟩
      · split
        · exact ⟨by constructor <;> rfl, rfl, rfl⟩
        · split <;> exact ⟨by constructor <;> rfl, rfl, rfl⟩
  · split <;> exact ⟨by constructor <;> rfl, rfl, rfl⟩

theorem evalSprite_kept (p : Ppu) (n : Nat) :
    PpuKept p (evalSprite p n) ∧ (evalSprite p n).framebuffer = p.framebuffer := by
  unfold evalSprite
  dsimp only
  split
  · split <;> exact ⟨by constructor <;> rfl, rfl⟩
  · exact ⟨by constructor <;> rfl, rfl⟩

theorem evalSprites_kept (p : Ppu) : PpuKept p (evalSprites p) ∧ (evalSprites p).framebuffer = p.framebuffer := by
  have fold : ∀ (l : List Nat) (q : Ppu), PpuKept q (l.foldl evalSprite q) ∧
      (l.foldl evalSprite q).framebuffer = q.framebuffer := by
    intro l
    induction l with
    | nil => exact fun q => ⟨PpuKept.refl q, rfl⟩
    | cons n l ih =>
      intro q
      obtain ⟨h1, h2⟩ := ih (evalSprite q n)
      obtain ⟨k1, k2⟩ := evalSprite_kept q n
      exact ⟨k1.trans h1, h2.trans k2⟩
  unfold evalSprites
  generalize List.range 64 = l
  obtain ⟨h1, h2⟩ := fold l { p with secCount := 0, secHas0 := false }
  exact ⟨⟨h1.ctrl, h1.mask, h1.t, h1.x, h1.w, h1.readbuf, h1.scanline, h1.dot, h1.frame, h1.ticks, h1.vram, h1.oam,
    h1.palette⟩, h2⟩

theorem evalStage_kept (p : Ppu) : PpuKept p (evalStage p) ∧ (evalStage p).framebuffer = p.framebuffer := by
  unfold evalStage
  split
  · split
    · exact evalSprites_kept p
    · exact ⟨by constructor <;> rfl, rfl⟩
  · exact ⟨by constructor <;> rfl, rfl⟩

theorem spriteStage_kept (c : Cart) (f : Nat) (s : Video) : StageKept s (spriteStage c f s) := by
  unfold spriteStage
  split
  · unfold fetchSprite
    split
    · exact ⟨by constructor <;> rfl, rfl, rfl⟩
    · split
      · exact ⟨by constructor <;> rfl, rfl, rfl⟩
      · split <;> exact ⟨by constructor <;> rfl, rfl, rfl⟩
  · exact StageKept.refl s

theorem fetchSteps_kept (c : Cart) (f : Nat) (s : Video) : StageKept s (fetchSteps c f s) := by
  unfold fetchSteps
  dsimp only
  have h1 : StageKept s { s with ppu := shiftStage s.ppu } :=
    ⟨(shiftStage_kept s.ppu).1, (shiftStage_kept s.ppu).2, rfl⟩
  have h2 := fetchStage_kept c f { s with ppu := shiftStage s.ppu }
  generalize fetchStage c f { s with ppu := shiftStage s.ppu } = u at *
  have h3 : StageKept u { u with ppu := evalStage u.ppu } := ⟨(evalStage_kept _).1, (evalStage_kept _).2, rfl⟩
  exact ((h1.trans h2).trans h3).trans (spriteStage_kept c f _)

theorem outputPixel_kept (p : Ppu) (px : Nat) : PpuKept p (outputPixel p px) := by
  unfold outputPixel
  split <;> (constructor <;> rfl)

theorem pixelStage_kept (p : Ppu) : PpuKept p (pixelStage p) := by
  unfold pixelStage
  split
  · exact outputPixel_kept _ _
  · constructor <;> rfl

theorem scrollStage_kept (p : Ppu) : PpuKept p (scrollStage p) := by constructor <;> rfl

theorem oamaddrStage_kept (p : Ppu) : PpuKept p (oamaddrStage p) := by
  unfold oamaddrStage
  split <;> (constructor <;> rfl)

theorem vblankEvents_kept (s : Video) : PpuKept s.ppu (vblankEvents s).ppu := by
  unfold vblankEvents
  split
  · constructor <;> rfl
  · split <;> (constructor <;> rfl)

/-- A whole tick: the position advances and the fields of `PpuKept` are otherwise as they were (rules R364, R388). -/
theorem tick_kept (c : Cart) (f : Nat) (s : Video) : PpuKept (advance s.ppu) (s.tick c f).ppu := by
  unfold Video.tick
  dsimp only
  have h1 : PpuKept (advance s.ppu) (vblankEvents { s with ppu := advance s.ppu }).ppu := 
    vblankEvents_kept { s with ppu := advance s.ppu }
  generalize vblankEvents { s with ppu := advance s.ppu } = u at *
  split
  · refine (((h1.trans (fetchSteps_kept c f u).kept).trans (pixelStage_kept _)).trans (scrollStage_kept _)).trans
      (oamaddrStage_kept _)
  · exact h1.trans (pixelStage_kept _)

/-! ### The position (rule R364) -/

theorem advance_kept (p : Ppu) : (advance p).ticks = p.ticks + 1 ∧ (advance p).ctrl = p.ctrl ∧
    (advance p).mask = p.mask ∧ (advance p).vram = p.vram ∧ (advance p).oam = p.oam ∧
    (advance p).palette = p.palette ∧ (advance p).framebuffer = p.framebuffer ∧ (advance p).t = p.t ∧
    (advance p).x = p.x ∧ (advance p).w = p.w ∧ (advance p).readbuf = p.readbuf := by
  unfold advance
  split
  · split <;> exact ⟨rfl, rfl, rfl, rfl, rfl, rfl, rfl, rfl, rfl, rfl, rfl⟩
  · exact ⟨rfl, rfl, rfl, rfl, rfl, rfl, rfl, rfl, rfl, rfl, rfl⟩

theorem State.tick_ticks (s : State) : s.tick.ppu.ticks = s.ppu.ticks + 1 :=
  (tick_kept _ _ _).ticks.trans (advance_kept _).1

/-- A tick changes nothing but the PPU, the mapper and `nmi_pending`. -/
theorem State.tick_frame (s : State) : ∃ v, s.tick = s.withVideo v := ⟨_, rfl⟩

theorem State.ticks_frame (n : Nat) (s : State) : ∃ v, State.ticks n s = s.withVideo v := by
  induction n generalizing s with
  | zero => exact ⟨s.video, rfl⟩
  | succ n ih =>
    obtain ⟨v, hv⟩ := ih s.tick
    exact ⟨v, hv⟩

theorem State.ticks_ticks (n : Nat) (s : State) : (State.ticks n s).ppu.ticks = s.ppu.ticks + n := by
  induction n generalizing s with
  | zero => rfl
  | succ n ih =>
    rw [State.ticks, ih, State.tick_ticks]
    omega

theorem State.ticks_add (m n : Nat) (s : State) : State.ticks (m + n) s = State.ticks n (State.ticks m s) := by
  induction m generalizing s with
  | zero => rw [Nat.zero_add]; rfl
  | succ m ih => rw [Nat.succ_add]; exact ih s.tick

@[simp] theorem State.ticks_cpu (n : Nat) (s : State) : (State.ticks n s).cpu = s.cpu := by
  obtain ⟨v, h⟩ := State.ticks_frame n s; rw [h]; rfl
@[simp] theorem State.ticks_cyc (n : Nat) (s : State) : (State.ticks n s).cyc = s.cyc := by
  obtain ⟨v, h⟩ := State.ticks_frame n s; rw [h]; rfl
@[simp] theorem State.ticks_ram (n : Nat) (s : State) : (State.ticks n s).ram = s.ram := by
  obtain ⟨v, h⟩ := State.ticks_frame n s; rw [h]; rfl
@[simp] theorem State.ticks_cart (n : Nat) (s : State) : (State.ticks n s).cart = s.cart := by
  obtain ⟨v, h⟩ := State.ticks_frame n s; rw [h]; rfl
@[simp] theorem State.ticks_params (n : Nat) (s : State) : (State.ticks n s).params = s.params := by
  obtain ⟨v, h⟩ := State.ticks_frame n s; rw [h]; rfl
@[simp] theorem State.ticks_host (n : Nat) (s : State) : (State.ticks n s).host = s.host := by
  obtain ⟨v, h⟩ := State.ticks_frame n s; rw [h]; rfl
@[simp] theorem State.ticks_busLast (n : Nat) (s : State) : (State.ticks n s).busLast = s.busLast := by
  obtain ⟨v, h⟩ := State.ticks_frame n s; rw [h]; rfl

/-- A property that one tick keeps is kept by any number of ticks. -/
theorem State.ticks_induction (P : State → Prop) (htick : ∀ s, P s → P s.tick) (n : Nat) (s : State) (h : P s) :
    P (State.ticks n s) := by
  induction n generalizing s with
  | zero => exact h
  | succ n ih => exact ih s.tick (htick s h)

/-! ### The framebuffer (rule R387) -/

/-- The pixel stage writes one cell at most, and no other field that matters here. -/
theorem pixelStage_framebuffer (p : Ppu) :
    if p.scanline < 240 ∧ 1 ≤ p.dot ∧ p.dot ≤ 256 then
      ∃ j, (pixelStage p).framebuffer =
        p.framebuffer.write (256 * p.scanline + (p.dot - 1)) (greyed p (p.palette.read j))
    else (pixelStage p).framebuffer = p.framebuffer := by
  have cond : (p.visibleLine && decide (1 ≤ p.dot) && decide (p.dot ≤ 256)) =
      decide (p.scanline < 240 ∧ 1 ≤ p.dot ∧ p.dot ≤ 256) := by
    simp only [Ppu.visibleLine, Bool.decide_and, Bool.and_assoc]
  unfold pixelStage
  rw [cond]
  by_cases h : p.scanline < 240 ∧ 1 ≤ p.dot ∧ p.dot ≤ 256
  · rw [if_pos h, if_pos (decide_eq_true h)]
    unfold outputPixel
    split
    · exact ⟨_, rfl⟩
    · exact ⟨_, rfl⟩
  · rw [if_neg h, if_neg (by simpa using h)]

/-- A tick writes one framebuffer cell at most, the one of its dot, with a colour of the palette. -/
theorem tick_framebuffer (c : Cart) (f : Nat) (s : Video) :
    if (advance s.ppu).scanline < 240 ∧ 1 ≤ (advance s.ppu).dot ∧ (advance s.ppu).dot ≤ 256 then
      ∃ j, (s.tick c f).ppu.framebuffer = s.ppu.framebuffer.write
        (256 * (advance s.ppu).scanline + ((advance s.ppu).dot - 1)) (greyed s.ppu (s.ppu.palette.read j))
    else (s.tick c f).ppu.framebuffer = s.ppu.framebuffer := by
  obtain ⟨_, _, am, _, _, ap, afb, _⟩ := advance_kept s.ppu
  have start : ∀ u : Video, PpuKept (advance s.ppu) u.ppu → u.ppu.framebuffer = s.ppu.framebuffer →
      if (advance s.ppu).scanline < 240 ∧ 1 ≤ (advance s.ppu).dot ∧ (advance s.ppu).dot ≤ 256 then
        ∃ j, (pixelStage u.ppu).framebuffer = s.ppu.framebuffer.write
          (256 * (advance s.ppu).scanline + ((advance s.ppu).dot - 1)) (greyed s.ppu (s.ppu.palette.read j))
      else (pixelStage u.ppu).framebuffer = s.ppu.framebuffer := by
    intro u k hf
    have h := pixelStage_framebuffer u.ppu
    simp only [greyed, Ppu.grey, k.scanline, k.dot, k.palette, k.mask, hf, am, ap] at h
    exact h
  have hv : PpuKept (advance s.ppu) (vblankEvents { s with ppu := advance s.ppu }).ppu :=
    vblankEvents_kept { s with ppu := advance s.ppu }
  have hvf : (vblankEvents { s with ppu := advance s.ppu }).ppu.framebuffer = s.ppu.framebuffer := by
    unfold vblankEvents
    split
    · exact afb
    · split <;> exact afb
  unfold Video.tick
  dsimp only
  generalize vblankEvents { s with ppu := advance s.ppu } = u at *
  have o : ∀ p : Ppu, (oamaddrStage (scrollStage p)).framebuffer = p.framebuffer := by
    intro p
    unfold oamaddrStage
    split <;> rfl
  cases hr : u.ppu.rendering && u.ppu.renderingLine
  · simp only [Bool.false_eq_true, if_false]
    exact start u hv hvf
  · have k := fetchSteps_kept c f u
    simp only [if_true, o]
    exact start (fetchSteps c f u) (hv.trans k.kept) (k.framebuffer.trans hvf)

end Sys2Proof.Machine
end

