-- ==== Sys2Proof/Laws/Dots.lean ====
section
/-! SUPPORT. One PPU dot: what each stage of a tick writes, each stage in the numbers Safety.lean states the dot in, and
the tick as those stages (rule R388). -/

namespace Sys2Proof.Machine

/-! ### What each stage writes: the fields named, and nothing else -/

theorem shiftStage_writes (p : Ppu) : ∃ a b c d,
    shiftStage p = { p with bgLo := a, bgHi := b, atLo := c, atHi := d } := by
  unfold shiftStage; dsimp only; split <;> split <;> exact ⟨_, _, _, _, rfl⟩

theorem fetchStage_writes (c : Cart) (f : Nat) (s : Video) : ∃ nt at' lo hi m,
    fetchStage c f s =
      { s with ppu := { s.ppu with ntLatch := nt, atLatch := at', ptLoLatch := lo, ptHiLatch := hi }, mapper := m } := by
  unfold fetchStage
  dsimp only
  repeat' split
  all_goals exact ⟨_, _, _, _, _, rfl⟩

theorem evalSprite_writes (p : Ppu) (n : Nat) : ∃ e k z o,
    evalSprite p n = { p with sec := e, secCount := k, secHas0 := z, overflow := o } := by
  unfold evalSprite
  dsimp only
  repeat' split
  all_goals exact ⟨_, _, _, _, rfl⟩

theorem evalStage_writes (p : Ppu) : ∃ e k z o n h,
    evalStage p = { p with sec := e, secCount := k, secHas0 := z, overflow := o, spriteCount := n, spr0OnLine := h } := by
  have fold : ∀ (l : List Nat) (q : Ppu), ∃ e k z o,
      l.foldl evalSprite q = { q with sec := e, secCount := k, secHas0 := z, overflow := o } := by
    intro l
    induction l with
    | nil => exact fun q => ⟨_, _, _, _, rfl⟩
    | cons n l ih =>
      intro q
      obtain ⟨_, _, _, _, h⟩ := evalSprite_writes q n
      obtain ⟨_, _, _, _, k⟩ := ih (evalSprite q n)
      exact ⟨_, _, _, _, by rw [List.foldl_cons, k, h]⟩
  unfold evalStage
  split
  · split
    · unfold evalSprites
      obtain ⟨_, _, _, _, h⟩ := fold (List.range 64) { p with secCount := 0, secHas0 := false }
      exact ⟨_, _, _, _, _, _, by rw [h]⟩
    · exact ⟨_, _, _, _, _, _, rfl⟩
  · exact ⟨_, _, _, _, _, _, rfl⟩

theorem spriteStage_writes (c : Cart) (f : Nat) (s : Video) : ∃ lo e m,
    spriteStage c f s = { s with ppu := { s.ppu with sprLoLatch := lo, slots := e }, mapper := m } := by
  unfold spriteStage fetchSprite
  dsimp only
  repeat' split
  all_goals exact ⟨_, _, _, rfl⟩

theorem pixelStage_writes (p : Ppu) : ∃ h b, pixelStage p = { p with sprite0hit := h, framebuffer := b } := by
  unfold pixelStage outputPixel
  repeat' split
  all_goals exact ⟨_, _, rfl⟩

theorem scrollStage_writes (p : Ppu) : ∃ v, scrollStage p = { p with v := v } := ⟨_, rfl⟩

theorem oamaddrStage_writes (p : Ppu) : ∃ a, oamaddrStage p = { p with oamaddr := a } := by
  unfold oamaddrStage; split <;> exact ⟨_, rfl⟩

theorem vblankEvents_writes (s : Video) : ∃ vb fr h o n,
    vblankEvents s =
      { s with ppu := { s.ppu with vblank := vb, frameReady := fr, sprite0hit := h, overflow := o }, nmi := n } := by
  unfold vblankEvents
  repeat' split
  all_goals exact ⟨_, _, _, _, _, rfl⟩

theorem advance_writes (p : Ppu) : ∃ t d s f, advance p = { p with ticks := t, dot := d, scanline := s, frame := f } := by
  unfold advance
  repeat' split
  all_goals exact ⟨_, _, _, _, rfl⟩

/-! ### The stages in the numbers that Safety.lean's statements use -/

theorem tileDot_eq (d : Nat) : tileDot d = decide (isTileDot d) := by
  simp [tileDot, isTileDot]

theorem active_eq (p : Ppu) : (p.rendering && p.renderingLine) = true ↔ p.renders := by
  simp [Ppu.rendering, Ppu.showBg, Ppu.showSpr, Ppu.renderingLine, Ppu.visibleLine, Ppu.renders]

/-- A mask of `k` bits from bit `j` on, as arithmetic. -/
theorem and_field (x j k : Nat) : x &&& ((2 ^ k - 1) * 2 ^ j) = x / 2 ^ j % 2 ^ k * 2 ^ j := by
  apply Nat.eq_of_testBit_eq
  intro i
  rw [Nat.testBit_and, Nat.testBit_mul_two_pow, Nat.testBit_mul_two_pow, Nat.testBit_mod_two_pow,
    Nat.testBit_div_two_pow, Nat.testBit_two_pow_sub_one]
  by_cases h : j ≤ i
  · simp [h, Bool.and_comm]
  · simp [h]

/-- Joining disjoint fields is adding them. -/
theorem or_eq_add (a b i : Nat) (h : b < 2 ^ i) : 2 ^ i * a ||| b = 2 ^ i * a + b :=
  (Nat.two_pow_add_eq_or_of_lt h a).symm

/-- The address of the nametable fetch (rule R371). -/
theorem ntAddr_eq (v : BitVec 15) : ntAddr v = ntAddrOf v := by
  apply BitVec.eq_of_toNat_eq
  have e := and_field (v.toNat % 16384) 0 12
  have o := or_eq_add 1 (v.toNat % 4096) 13 (by omega)
  unfold ntAddr ntAddrOf
  simp only [BitVec.toNat_or, BitVec.toNat_and, BitVec.toNat_setWidth, BitVec.toNat_ofNat]
  norm_num at *
  rw [e, o]; omega

/-- The address of the attribute fetch (rule R372). -/
theorem atAddr_eq (v : BitVec 15) : atAddr v = atAddrOf v := by
  have hv := v.isLt
  apply BitVec.eq_of_toNat_eq
  have e1 := and_field (v.toNat % 16384) 10 2
  have e2 := and_field (v.toNat / 16 % 16384) 3 3
  have e3 := and_field (v.toNat / 4 % 16384) 0 3
  have o1 := or_eq_add (2 + v.toNat / 1024 % 4) 0x3C0 10 (by omega)
  have o1' : 0x23C0 ||| v.toNat / 1024 % 4 * 1024 = 0x23C0 + v.toNat / 1024 % 4 * 1024 := by
    have : v.toNat / 1024 % 4 < 4 := by omega
    generalize v.toNat / 1024 % 4 = n at *
    interval_cases n <;> rfl
  have o2 := or_eq_add ((0x23C0 + v.toNat / 1024 % 4 * 1024) / 64) (v.toNat / 128 % 8 * 8) 6 (by omega)
  have o3 := or_eq_add ((0x23C0 + v.toNat / 1024 % 4 * 1024) / 8 + v.toNat / 128 % 8) (v.toNat / 4 % 8) 3 (by omega)
  rw [show 2 ^ 6 * ((0x23C0 + v.toNat / 1024 % 4 * 1024) / 64) = 0x23C0 + v.toNat / 1024 % 4 * 1024 by omega] at o2
  rw [show 2 ^ 3 * ((0x23C0 + v.toNat / 1024 % 4 * 1024) / 8 + v.toNat / 128 % 8) =
    0x23C0 + v.toNat / 1024 % 4 * 1024 + v.toNat / 128 % 8 * 8 by omega] at o3
  unfold atAddr atAddrOf
  simp only [BitVec.toNat_or, BitVec.toNat_and, BitVec.toNat_setWidth, BitVec.toNat_ofNat, BitVec.toNat_ushiftRight,
    Nat.shiftRight_eq_div_pow]
  norm_num at *
  rw [e1, e2, e3, show v.toNat % 16384 / 1024 % 4 = v.toNat / 1024 % 4 by omega,
    show v.toNat / 16 % 16384 / 8 % 8 = v.toNat / 128 % 8 by omega, o1', o2, o3]
  omega

/-- The two bits the attribute latch takes (rule R372). -/
theorem atField_eq (v : BitVec 15) (b : Byte) : atField v b = atFieldOf v b := by
  have hv := v.isLt
  have e1 := and_field (v.toNat / 16) 2 1
  have e2 := and_field v.toNat 1 1
  have o := or_eq_add (v.toNat / 64 % 2) (v.toNat / 2 % 2 * 2) 2 (by omega)
  apply BitVec.eq_of_toNat_eq
  unfold atField atFieldOf
  simp only [BitVec.toNat_or, BitVec.toNat_and, BitVec.toNat_setWidth, BitVec.toNat_ofNat, BitVec.toNat_ushiftRight,
    Nat.shiftRight_eq_div_pow]
  norm_num at *
  rw [e1, e2, Nat.div_div_eq_div_mul, Nat.mul_comm _ 4, o, Nat.mul_comm (v.toNat / 2 % 2) 2]

/-- The address of the pattern fetches (rules R373, R374). -/
theorem bgPatternAddr_eq (p : Ppu) : bgPatternAddr p = ptAddrOf p := by
  have h1 := p.v.isLt
  have h2 := p.ntLatch.isLt
  unfold bgPatternAddr ptAddrOf fineY Ppu.bgTable
  apply BitVec.eq_of_toNat_eq
  cases p.ctrl.getLsbD 4 <;>
    simp [BitVec.toNat_add, BitVec.toNat_mul, Nat.shiftRight_eq_div_pow] <;> omega

/-- A reload replaces a shifter's low byte (rule R375). -/
theorem loadLow_eq (n : Nat) (b : Byte) : BitVec.ofNat 16 (n / 256 * 256 + b.toNat) = loadLow (BitVec.ofNat 16 n) b := by
  have hb := b.isLt
  have e := and_field (n % 65536) 8 8
  have o := or_eq_add (n % 65536 / 256) b.toNat 8 (by omega)
  apply BitVec.eq_of_toNat_eq
  unfold loadLow
  simp only [BitVec.toNat_or, BitVec.toNat_and, BitVec.toNat_setWidth, BitVec.toNat_ofNat]
  norm_num at *
  rw [e, Nat.mod_eq_of_lt (show b.toNat < 65536 by omega),
    show n % 65536 / 256 % 256 * 256 = 256 * (n % 65536 / 256) by omega, o]
  omega

/-- The shift and the reload of a dot (rules R375, R376). -/
theorem shiftStage_eq (p : Ppu) : shiftStage p = { p with
    bgLo := shifterAt p.dot p.bgLo p.ptLoLatch, bgHi := shifterAt p.dot p.bgHi p.ptHiLatch,
    atLo := shifterAt p.dot p.atLo (attrByte (p.atLatch.getLsbD 0)),
    atHi := shifterAt p.dot p.atHi (attrByte (p.atLatch.getLsbD 1)) } := by
  have h0 : ∀ x : BitVec 16, BitVec.ofNat 16 x.toNat = x := fun x => by simp
  have h1 : ∀ x : BitVec 16, BitVec.ofNat 16 (2 * x.toNat) = x <<< 1 := by
    intro x; apply BitVec.eq_of_toNat_eq; simp [Nat.shiftLeft_eq, Nat.mul_comm]
  have sd : shiftDot p.dot = decide ((2 ≤ p.dot ∧ p.dot ≤ 257) ∨ (322 ≤ p.dot ∧ p.dot ≤ 337)) := by
    simp [shiftDot]
  have rd : reloadDot p.dot =
      decide (p.dot % 8 = 1 ∧ ((9 ≤ p.dot ∧ p.dot ≤ 257) ∨ p.dot = 329 ∨ p.dot = 337)) := by
    rw [Bool.eq_iff_iff]; simp [reloadDot]; omega
  unfold shiftStage
  by_cases hs : (2 ≤ p.dot ∧ p.dot ≤ 257) ∨ (322 ≤ p.dot ∧ p.dot ≤ 337) <;>
    by_cases hr : p.dot % 8 = 1 ∧ ((9 ≤ p.dot ∧ p.dot ≤ 257) ∨ p.dot = 329 ∨ p.dot = 337) <;>
    simp only [sd, rd, hs, hr, and_self, decide_true, decide_false, if_true, if_false,
    Bool.false_eq_true, shifterAt, loadLow_eq, h1, h0,
      shiftShifters, reloadShifters, attrByte]

/-- A tick's video side once the position has advanced and vblank has begun or ended: step (1) of rule R388. -/
def Video.begun (s : Video) : Video := vblankEvents { s with ppu := advance s.ppu }

theorem Video.begun_renders (s : Video) : s.begun.ppu.renders ↔ (advance s.ppu).renders := by
  obtain ⟨_, _, _, _, _, e⟩ := vblankEvents_writes { s with ppu := advance s.ppu }
  unfold Video.begun
  rw [e]
  rfl

/-- A tick on a rendering line with rendering enabled is steps (2) to (9) of rule R388. -/
theorem Video.tick_of_renders (c : Cart) (f : Nat) {s : Video} (h : (advance s.ppu).renders) :
    s.tick c f =
      { fetchSteps c f s.begun with
        ppu := oamaddrStage (scrollStage (pixelStage (fetchSteps c f s.begun).ppu)) } := by
  have k := (active_eq _).mpr ((Video.begun_renders s).mpr h)
  unfold Video.begun at *
  unfold Video.tick
  dsimp only
  generalize vblankEvents { s with ppu := advance s.ppu } = u at *
  simp only [k, if_true]

/-- Any other tick is its step (7). -/
theorem Video.tick_of_idle (c : Cart) (f : Nat) {s : Video} (h : ¬ (advance s.ppu).renders) :
    s.tick c f = { s.begun with ppu := pixelStage s.begun.ppu } := by
  have k : ¬ (s.begun.ppu.rendering && s.begun.ppu.renderingLine) = true := by
    rw [active_eq, Video.begun_renders]; exact h
  unfold Video.begun at *
  unfold Video.tick
  dsimp only
  generalize vblankEvents { s with ppu := advance s.ppu } = u at *
  simp only [k, Bool.false_eq_true, if_false]

/-- The updates of `v` (rules R370, R377 to R380). -/
theorem scrollStage_v (p : Ppu) : (scrollStage p).v =
    if p.dot = 256 then incY (incCoarseX p.v)
    else if p.dot = 257 then copyX p.t p.v
    else if p.scanline = 261 ∧ 280 ≤ p.dot ∧ p.dot ≤ 304 then copyY p.t p.v
    else if isTileDot p.dot ∧ p.dot % 8 = 0 then incCoarseX p.v
    else p.v := by
  have e : (tileDot p.dot && (p.dot - 1) % 8 == 7) = decide (isTileDot p.dot ∧ p.dot % 8 = 0) := by
    rw [Bool.eq_iff_iff]; simp [tileDot, isTileDot]; omega
  unfold scrollStage
  simp only [e, decide_eq_true_eq]
  unfold isTileDot
  by_cases h1 : p.dot = 256
  · simp [h1]
  · by_cases h2 : p.dot = 257
    · simp [h2]
    · by_cases h3 : p.scanline = 261 ∧ 280 ≤ p.dot ∧ p.dot ≤ 304
      · have ht : ¬ (((1 ≤ p.dot ∧ p.dot ≤ 256) ∨ (321 ≤ p.dot ∧ p.dot ≤ 336)) ∧ p.dot % 8 = 0) := by omega
        simp only [h1, h2, h3, ht, if_false, if_true, and_self]
      · simp only [h1, h2, h3, if_false]

/-- The background fetches (rules R371 to R374, R381). -/
theorem fetchStage_eq (c : Cart) (f : Nat) (s : Video) :
    fetchStage c f s =
      let d := s.ppu.dot
      let b (a : BitVec 14) := ppuPeek c (s.mapper.notify f a s.ppu.ticks) s.ppu a
      if isTileDot d ∧ d % 8 = 1 ∨ d = 337 ∨ d = 339 then
        { s with
          mapper := s.mapper.notify f (ntAddrOf s.ppu.v) s.ppu.ticks
          ppu := { s.ppu with ntLatch := b (ntAddrOf s.ppu.v) } }
      else if isTileDot d ∧ d % 8 = 3 then
        { s with
          mapper := s.mapper.notify f (atAddrOf s.ppu.v) s.ppu.ticks
          ppu := { s.ppu with atLatch := atFieldOf s.ppu.v (b (atAddrOf s.ppu.v)) } }
      else if isTileDot d ∧ d % 8 = 5 then
        { s with
          mapper := s.mapper.notify f (ptAddrOf s.ppu) s.ppu.ticks
          ppu := { s.ppu with ptLoLatch := b (ptAddrOf s.ppu) } }
      else if isTileDot d ∧ d % 8 = 7 then
        { s with
          mapper := s.mapper.notify f (ptAddrOf s.ppu + 8#14) s.ppu.ticks
          ppu := { s.ppu with ptHiLatch := b (ptAddrOf s.ppu + 8#14) } }
      else s := by
  have t : tileDot s.ppu.dot = decide (isTileDot s.ppu.dot) := tileDot_eq _
  unfold fetchStage
  simp only [t, decide_eq_true_eq]
  unfold isTileDot
  repeat' split
  all_goals first
    | omega
    | (simp only [fetchNt, fetchAt, fetchPtLo, fetchPtHi, Video.read, Video.notify, ntAddr_eq, atAddr_eq,
        atField_eq, bgPatternAddr_eq])

/-- The sprite fetches (rule R383). -/
theorem spriteStage_eq (c : Cart) (f : Nat) (s : Video) :
    spriteStage c f s =
      let d := s.ppu.dot
      let i := (d - 257) / 8
      let a := spriteAddr s.ppu i
      let m (a : BitVec 14) := s.mapper.notify f a s.ppu.ticks
      if 257 ≤ d ∧ d ≤ 320 then
        if d % 8 = 1 ∨ d % 8 = 3 then { s with mapper := m (ntAddrOf s.ppu.v) }
        else if d % 8 = 5 then { s with mapper := m a, ppu := { s.ppu with sprLoLatch := ppuPeek c (m a) s.ppu a } }
        else if d % 8 = 7 then
          { s with mapper := m (a + 8#14), ppu := { s.ppu with
            slots := s.ppu.slots.setIfInBounds i
              (loadedSlot s.ppu i s.ppu.sprLoLatch (ppuPeek c (m (a + 8#14)) s.ppu (a + 8#14))) } }
        else s
      else s := by
  have t : spriteDot s.ppu.dot = decide (257 ≤ s.ppu.dot ∧ s.ppu.dot ≤ 320) := by simp [spriteDot]
  unfold spriteStage fetchSprite
  simp only [t, decide_eq_true_eq]
  repeat' split
  all_goals first
    | omega
    | simp only [Video.read, Video.notify, ntAddr_eq]

/-! ### What a dot draws (rules R384 to R386) -/

theorem twoBits_eq {n m : Nat} (x : BitVec n) (y : BitVec m) (i : Nat) :
    twoBits (x.getLsbD i) (y.getLsbD i) = 2 * (x.toNat / 2 ^ i % 2) + y.toNat / 2 ^ i % 2 := by
  unfold twoBits BitVec.getLsbD
  rw [Nat.toNat_testBit, Nat.toNat_testBit]

/-- The background's pixel after the dot's shift, from the registers before it (rule R384). -/
theorem bgPixel_eq {p r : Ppu} (hd : 1 ≤ p.dot) (hm : r.mask = p.mask) (hx : r.x = p.x)
    (h1 : r.bgLo = shifterAt p.dot p.bgLo p.ptLoLatch) (h2 : r.bgHi = shifterAt p.dot p.bgHi p.ptHiLatch)
    (h3 : r.atLo = shifterAt p.dot p.atLo (attrByte (p.atLatch.getLsbD 0)))
    (h4 : r.atHi = shifterAt p.dot p.atHi (attrByte (p.atLatch.getLsbD 1))) :
    bgPixel r (p.dot - 1) = bgPixelAt p := by
  have e : decide (p.dot - 1 < 8) = !decide (8 < p.dot) := by
    rw [Bool.eq_iff_iff]; simp; omega
  unfold bgPixel bgPixelAt Ppu.showBg Ppu.bgLeft
  simp only [twoBits_eq, hm, hx, h1, h2, h3, h4, e]
  cases p.mask.getLsbD 3 <;> cases p.mask.getLsbD 1 <;> cases decide (8 < p.dot) <;> rfl

theorem slotPixel_eq (s : SpriteSlot) (px : Nat) : slotPixel s px = slotPixelAt s px := by
  unfold slotPixel slotPixelAt
  simp only [twoBits_eq]
  by_cases h : s.x.toNat ≤ px ∧ px < s.x.toNat + 8
  · rw [if_pos h, if_pos (by omega)]
  · rw [if_neg h, if_neg (by omega)]

/-- The first slot that shows an opaque pixel (rule R385). -/
theorem firstSprite_eq (z : Bool) (px : Nat) (l : List SpriteSlot) (i : Nat) :
    firstSprite z px i l = ((l.zipIdx i).find? fun e => slotPixelAt e.1 px != 0).map fun e =>
      ⟨slotPixelAt e.1 px, e.1.attr.toNat % 4, e.1.attr.getLsbD 5, e.2 == 0 && z⟩ := by
  induction l generalizing i with
  | nil => rfl
  | cons s l ih =>
    have m : (s.attr &&& 3#8).toNat = s.attr.toNat % 4 := by
      rw [BitVec.toNat_and]; exact Nat.and_two_pow_sub_one_eq_mod _ 2
    unfold firstSprite
    rw [slotPixel_eq, ih, List.zipIdx_cons, List.find?_cons, m]
    by_cases h : slotPixelAt s px = 0
    · simp [h]
    · have h' : (slotPixelAt s px != 0) = true := by simpa using h
      rw [if_neg h]
      simp only [h', Option.map_some]

theorem zipIdx_take {α : Type} (l : List α) (n i : Nat) : (l.take n).zipIdx i = (l.zipIdx i).take n := by
  induction l generalizing n i with
  | nil => simp
  | cons a l ih => cases n <;> simp [List.zipIdx_cons, ih]

/-- The sprite's pixel (rule R385). -/
theorem spritePixel_eq {p r : Ppu} (hd : 1 ≤ p.dot) (hm : r.mask = p.mask) (hs : r.slots = p.slots)
    (hc : r.spriteCount = p.spriteCount) (hz : r.spr0OnLine = p.spr0OnLine) :
    spritePixel r (p.dot - 1) = (spriteAt p).map fun e =>
      ⟨slotPixelAt e.1 (p.dot - 1), e.1.attr.toNat % 4, e.1.attr.getLsbD 5, e.2 == 0 && p.spr0OnLine⟩ := by
  have e : decide (p.dot - 1 < 8) = !decide (8 < p.dot) := by
    rw [Bool.eq_iff_iff]; simp; omega
  unfold spritePixel spriteAt Ppu.showSpr Ppu.sprLeft
  simp only [firstSprite_eq, zipIdx_take, hm, hs, hc, hz, e]
  cases p.mask.getLsbD 4 <;> cases p.mask.getLsbD 2 <;> cases decide (8 < p.dot) <;> rfl

theorem spriteAt_ne {p : Ppu} {e : SpriteSlot × Nat} (h : spriteAt p = some e) : slotPixelAt e.1 (p.dot - 1) ≠ 0 := by
  unfold spriteAt at h
  split at h
  · simpa using List.find?_some h
  · cases h

theorem slotPixelAt_lt (e : SpriteSlot) (px : Nat) : slotPixelAt e px < 4 := by
  unfold slotPixelAt
  split
  · dsimp only; omega
  · omega

theorem bgPixelAt_lt (p : Ppu) : (bgPixelAt p).1 < 4 ∧ (bgPixelAt p).2 < 4 := by
  unfold bgPixelAt
  dsimp only
  constructor
  · split <;> omega
  · omega

theorem palIndex_eq {i : Nat} (h : i < 32) (h' : i = 0 ∨ i % 4 ≠ 0) : palIndex i = i := by
  unfold palIndex
  dsimp only
  rw [if_neg (by omega)]; omega

/-- The entry a dot draws is never one of the mirrored backdrops (rules R352, R386). -/
theorem paletteEntryAt_ok (p : Ppu) : palIndex (paletteEntryAt p) = paletteEntryAt p := by
  obtain ⟨h1, h2⟩ := bgPixelAt_lt p
  unfold paletteEntryAt
  generalize bgPixelAt p = b at *
  obtain ⟨b1, b2⟩ := b
  dsimp only at *
  cases hs : spriteAt p with
  | none => dsimp only; split <;> exact palIndex_eq (by omega) (by omega)
  | some e =>
    obtain ⟨e, k⟩ := e
    have h3 := slotPixelAt_lt e (p.dot - 1)
    have h4 := spriteAt_ne hs
    dsimp only at *
    split <;> exact palIndex_eq (by omega) (by omega)

/-- What the pixel stage draws (rules R384 to R386, R368). -/
theorem outputPixel_eq {p r : Ppu} (hd : 1 ≤ p.dot) (hbg : r.rendering = true → bgPixel r (p.dot - 1) = bgPixelAt p)
    (hm : r.mask = p.mask) (hp : r.palette = p.palette) (hs : r.slots = p.slots)
    (hc : r.spriteCount = p.spriteCount) (hz : r.spr0OnLine = p.spr0OnLine) (hdot : p.dot ≤ 256) :
    outputPixel r (p.dot - 1) = putPixel { r with sprite0hit := r.sprite0hit || hitAt p } (p.dot - 1) (colourAt p) := by
  have hr : r.rendering = (p.mask.getLsbD 3 || p.mask.getLsbD 4) := by
    simp only [Ppu.rendering, Ppu.showBg, Ppu.showSpr, hm]
  have hg : ∀ c, greyed r c = if p.mask.getLsbD 0 then c &&& 0x30#8 else c := by
    intro c; simp only [greyed, Ppu.grey, hm]
  unfold outputPixel
  cases h : r.rendering
  · rw [hr, Bool.or_eq_false_iff] at h
    have b : (bgPixelAt p).1 = 0 := by simp only [bgPixelAt, h.1, Bool.false_and, Bool.false_eq_true, if_false]
    have s : spriteAt p = none := by simp only [spriteAt, h.2, Bool.false_and, Bool.false_eq_true, if_false]
    simp only [Bool.false_eq_true, if_false, hg, hitAt, colourAt, paletteEntryAt, b, s, ← hp, if_true,
      bne_self_eq_false, Bool.false_and, Bool.or_false]
  · have i : pixelIndex (bgPixelAt p) (spritePixel r (p.dot - 1)) = paletteEntryAt p := by
      rw [spritePixel_eq hd hm hs hc hz]
      unfold pixelIndex paletteEntryAt
      generalize bgPixelAt p = b
      obtain ⟨b1, b2⟩ := b
      cases spriteAt p with
      | none => simp [Nat.mul_comm]
      | some e =>
        simp only [Option.map_some]
        by_cases h0 : b1 = 0 <;> cases e.1.attr.getLsbD 5 <;> simp [h0, Nat.mul_comm]
    have ht : pixelHit (bgPixelAt p) (spritePixel r (p.dot - 1)) (p.dot - 1) = hitAt p := by
      rw [spritePixel_eq hd hm hs hc hz]
      have e : (p.dot - 1 != 255) = (p.dot != 256) := by
        rw [Bool.eq_iff_iff, bne_iff_ne, bne_iff_ne]; omega
      unfold pixelHit hitAt
      cases spriteAt p with
      | none => simp
      | some e' =>
        simp only [Option.map_some, Option.any_some, e]
        cases (bgPixelAt p).1 != 0 <;> cases (p.dot != 256) <;> cases p.spr0OnLine <;> cases (e'.2 == 0) <;> rfl
    simp only [if_true, hbg h, i, ht, paletteEntryAt_ok, hp, colourAt, hg]

/-- Within the dots that draw a pixel, steps (2) to (6) leave the sprites as they are. -/
theorem fetchSteps_drawing (c : Cart) (f : Nat) (s : Video) (h : s.ppu.dot ≤ 256) :
    fetchSteps c f s = fetchStage c f { s with ppu := shiftStage s.ppu } := by
  unfold fetchSteps
  dsimp only
  obtain ⟨_, _, _, _, e⟩ := shiftStage_writes s.ppu
  obtain ⟨_, _, _, _, _, e'⟩ := fetchStage_writes c f { s with ppu := shiftStage s.ppu }
  have hd : (fetchStage c f { s with ppu := shiftStage s.ppu }).ppu.dot ≤ 256 := by rw [e', e]; exact h
  generalize fetchStage c f { s with ppu := shiftStage s.ppu } = u at *
  have e1 : evalStage u.ppu = u.ppu := by unfold evalStage; rw [if_neg (by omega)]
  have e2 : spriteStage c f u = u := by rw [spriteStage_eq]; dsimp only; rw [if_neg (by omega)]
  rw [e1, e2]

end Sys2Proof.Machine
end

