-- ==== Sys2Proof/Laws/Exceptions.lean ====
section
/-! SUPPORT. Taking an exception and loading PC from a vector, in full. -/

namespace Sys2Proof.Machine

/-- Loading PC from a vector, in the words of Safety.lean. -/
theorem loadPc_vector {v : Addr} (h : 0x8000 ≤ v.toNat) (h' : 0x8000 ≤ (v + 1#16).toNat) (s : State) :
    loadPc v s =
      { s with busLast := hiByte (s.vectorAt v), cpu := { s.cpu with pc := s.vectorAt v } } := by
  rw [loadPc_eq h h']
  simp only [State.vectorAt, hiByte_wordOf]

/-- Taking an exception, in full (rules R235, R306). -/
theorem takeException_eq (ret : Addr) (status : Byte) {v : Addr} (h : 0x8000 ≤ v.toNat)
    (h' : 0x8000 ≤ (v + 1#16).toNat) (s : State) :
    takeException ret status v s =
      { s with
        cpu := { s.cpu with sp := s.cpu.sp - 3#8, p := s.cpu.p ||| 0x04#8, pc := s.vectorAt v }
        ram := exceptionFrame s.cpu.sp ret status s.ram
        busLast := hiByte (s.vectorAt v) } := by
  have putI (c : Cpu) : Cpu.put .I true c = { c with p := c.p ||| 0x04#8 } := rfl
  unfold takeException push16
  simp only [push_eq, State.mapCpu, putI, loadPc_vector h h', State.vectorAt, exceptionFrame, stackStore,
    BitVec.sub_sub]
  rfl

/-- An interrupt entry, in full (rule R306). -/
theorem interruptEntry_eq {v : Addr} (h : 0x8000 ≤ v.toNat) (h' : 0x8000 ≤ (v + 1#16).toNat) (s : State) :
    interruptEntry v s = s.entered v := by
  unfold interruptEntry
  rw [takeException_eq _ _ h h']
  rfl

end Sys2Proof.Machine
end

