-- ==== Sys2Proof/Laws/Flags.lean ====
section
/-! SUPPORT. The flag operations of Machine/Flags.lean against the masks and numbers of Safety.lean. -/

namespace Sys2Proof.Machine

/-- Writing a flag leaves the other flags alone. -/
theorem getFlag_putFlag (f g : Flag) (b : Bool) (p : Byte) :
    getFlag (putFlag f b p) g = if g = f then b else getFlag p g := by
  cases f <;> cases g <;> cases b <;> simp [getFlag, putFlag, Flag.bit]

/-- Bit 7 of a byte, as a comparison. -/
theorem bit7_eq (v : Byte) : v.getLsbD 7 = decide (128 ≤ v.toNat) := by revert v; decide

/-- Bit 0 of a byte, as a remainder. -/
theorem bit0_eq (v : Byte) : v.getLsbD 0 = decide (v.toNat % 2 = 1) := by revert v; decide

/-- Bit 7 of a byte, as a mask. -/
theorem mask80_eq (v : Byte) : v &&& 0x80#8 = if v.getLsbD 7 then 0x80#8 else 0#8 := by revert v; decide

theorem putFlag_C (b : Bool) (p : Byte) : putFlag .C b p = withC b p := by revert p; cases b <;> decide

theorem putFlag_V (b : Bool) (p : Byte) : putFlag .V b p = withV b p := by revert p; cases b <;> decide

theorem getFlag_C (p : Byte) : getFlag p .C = decide (carryIn p = 1) := by revert p; decide

/-- The carry as the number the adder adds. -/
theorem ofBool_C (p : Byte) : (getFlag p .C).toNat = carryIn p := by revert p; decide

/-- C put back as it is. -/
theorem withC_self (p : Byte) : withC (p.getLsbD 0) p = p := by revert p; decide

/-- `SetNZ` as a mask. -/
theorem putNZ_eq (v p : Byte) :
    putFlag .N (v.getLsbD 7) (putFlag .Z (decide (v = 0#8)) p) = withNZ v p := by
  unfold withNZ
  rw [mask80_eq]
  generalize v.getLsbD 7 = n
  by_cases hv : v = 0#8 <;> simp only [hv, decide_true, decide_false, if_true, if_false] <;> revert p <;>
    cases n <;> decide

/-- `SetNZ` on the registers. -/
theorem setNZ_eq (v : Byte) (c : Cpu) : setNZ v c = { c with p := withNZ v c.p } := by
  rw [← putNZ_eq]; rfl

theorem put_C_eq (b : Bool) (c : Cpu) : c.put .C b = { c with p := withC b c.p } := by
  rw [← putFlag_C]; rfl

theorem put_V_eq (b : Bool) (c : Cpu) : c.put .V b = { c with p := withV b c.p } := by
  rw [← putFlag_V]; rfl

/-- The order in which C and N, Z are written does not matter. -/
theorem withC_withNZ (b : Bool) (v p : Byte) : withC b (withNZ v p) = withNZ v (withC b p) := by
  simp only [← putFlag_C, ← putNZ_eq]
  generalize v.getLsbD 7 = n
  generalize decide (v = 0#8) = z
  revert p
  cases b <;> cases n <;> cases z <;> decide

/-- The order in which V and N, Z are written does not matter. -/
theorem withV_withNZ (b : Bool) (v p : Byte) : withV b (withNZ v p) = withNZ v (withV b p) := by
  simp only [← putFlag_V, ← putNZ_eq]
  generalize v.getLsbD 7 = n
  generalize decide (v = 0#8) = z
  revert p
  cases b <;> cases n <;> cases z <;> decide

/-- The order in which C and V are written does not matter. -/
theorem withC_withV (b d : Bool) (p : Byte) : withC b (withV d p) = withV d (withC b p) := by
  revert p; cases b <;> cases d <;> decide

/-! ### The adder -/

/-- The 9-bit sum as a number. -/
theorem adderSum_toNat (a m : Byte) (c : Bool) : (adderSum a m c).toNat = a.toNat + m.toNat + c.toNat := by
  have ha := a.isLt
  have hm := m.isLt
  cases c <;> simp [adderSum, BitVec.toNat_add] <;> omega

/-- The result byte of the adder. -/
theorem adderSum_byte (a m : Byte) (c : Bool) :
    (adderSum a m c).setWidth 8 = BitVec.ofNat 8 (a.toNat + m.toNat + c.toNat) := by
  apply BitVec.eq_of_toNat_eq
  simp [adderSum_toNat]

/-- The carry out of the adder. -/
theorem adderSum_carry (a m : Byte) (c : Bool) :
    (adderSum a m c).getLsbD 8 = decide (256 ≤ a.toNat + m.toNat + c.toNat) := by
  have ha := a.isLt
  have hm := m.isLt
  have hc : c.toNat ≤ 1 := by cases c <;> decide
  rw [BitVec.getLsbD, adderSum_toNat, Nat.testBit_eq_decide_div_mod_eq]
  by_cases h : 256 ≤ a.toNat + m.toNat + c.toNat <;> simp only [h, decide_true, decide_false]
  · exact decide_eq_true (by omega)
  · exact decide_eq_false (by omega)

/-- The overflow formula of rule R190: both inputs have one sign and the result the other. -/
theorem overflow_bits (a m r : Byte) :
    ((a ^^^ r) &&& (m ^^^ r) &&& 0x80#8 ≠ 0#8) ↔
      (a.getLsbD 7 ≠ r.getLsbD 7 ∧ m.getLsbD 7 ≠ r.getLsbD 7) := by
  rw [mask80_eq, BitVec.getLsbD_and, BitVec.getLsbD_xor, BitVec.getLsbD_xor]
  cases a.getLsbD 7 <;> cases m.getLsbD 7 <;> cases r.getLsbD 7 <;> decide

/-- The overflow of rule R190 is the overflow of the sum of the signed values. -/
theorem adder_overflow (a m : Byte) (c : Bool) :
    decide ((a ^^^ (adderSum a m c).setWidth 8) &&& (m ^^^ (adderSum a m c).setWidth 8) &&& 0x80#8 ≠ 0#8) =
      decide (a.toInt + m.toInt + (c.toNat : Int) < -128 ∨ 127 < a.toInt + m.toInt + (c.toNat : Int)) := by
  rw [decide_eq_decide, overflow_bits]
  simp only [bit7_eq, adderSum_byte, BitVec.toNat_ofNat, BitVec.toInt_eq_toNat_cond, ne_eq, decide_eq_decide]
  have ha := a.isLt
  have hm := m.isLt
  have hc : c.toNat ≤ 1 := by cases c <;> decide
  omega

/-- `Add(m)` (rule R190) is the sum of numbers (rule R189). -/
theorem add_eq (m : Byte) (c : Cpu) : add m c = addSpec m c := by
  unfold add addSpec
  simp only [setNZ_eq, put_V_eq, put_C_eq]
  simp only [adder_overflow]
  simp only [adderSum_byte, adderSum_carry]
  simp only [Cpu.get, ofBool_C, withC_withV]

/-- The complement of a byte, unsigned. -/
theorem compl_toNat (m : Byte) : (m ^^^ 0xFF#8).toNat = 255 - m.toNat := by revert m; decide
/-- The complement of a byte, signed. -/
theorem compl_toInt (m : Byte) : (m ^^^ 0xFF#8).toInt = -m.toInt - 1 := by revert m; decide

/-- SBC (rule R185) is the difference of numbers. -/
theorem sbc_eq (m : Byte) (c : Cpu) : sbc m c = subSpec m c := by
  rw [sbc, add_eq]
  unfold addSpec subSpec
  have hc : carryIn c.p < 2 := Nat.mod_lt _ (by decide)
  have hm := m.isLt
  have ha := c.a.isLt
  simp only [compl_toNat, compl_toInt]
  have e1 : BitVec.ofNat 8 (c.a.toNat + (255 - m.toNat) + carryIn c.p) = BitVec.ofInt 8 (c.a.toInt - m.toInt - ((1 - carryIn c.p : Nat) : Int)) := by
    apply BitVec.eq_of_toNat_eq
    simp only [BitVec.toNat_ofInt, BitVec.toInt_eq_toNat_cond, BitVec.toNat_ofNat]
    split <;> split <;> omega
  rw [e1]
  congr 3
  · rw [decide_eq_decide]; omega
  · congr 1
    rw [decide_eq_decide]; omega

/-- `Compare(r, m)` (rule R191). -/
theorem compare_eq (r m : Byte) (c : Cpu) : Machine.compare r m c = compareSpec r m c := by
  unfold Machine.compare compareSpec
  have e : BitVec.ofInt 8 ((r.toNat : Int) - m.toNat) = r - m := by
    have hm := m.isLt
    have ha := r.isLt
    apply BitVec.eq_of_toNat_eq
    simp only [BitVec.toNat_ofInt, BitVec.toNat_sub]
    omega
  have z : decide (r = m) = decide (r - m = 0#8) := by
    rw [decide_eq_decide]; constructor
    · rintro rfl; simp
    · intro h; simpa using congrArg (· + m) h
  rw [e, z]
  simp only [Cpu.put, ← putFlag_C, ← putNZ_eq]
  congr 1
  generalize (r - m).getLsbD 7 = n
  generalize decide (r - m = 0#8) = z
  generalize decide (m.toNat ≤ r.toNat) = k
  generalize c.p = p
  revert p
  cases z <;> cases n <;> cases k <;> decide

/-! ### Loads, BIT and the immediate combinations -/

theorem loadA_eq (v : Byte) (c : Cpu) : loadA v c = { c with a := v, p := withNZ v c.p } := by
  simp [loadA, setNZ_eq]
theorem loadX_eq (v : Byte) (c : Cpu) : loadX v c = { c with x := v, p := withNZ v c.p } := by
  simp [loadX, setNZ_eq]
theorem loadY_eq (v : Byte) (c : Cpu) : loadY v c = { c with y := v, p := withNZ v c.p } := by
  simp [loadY, setNZ_eq]
theorem loadAX_eq (v : Byte) (c : Cpu) : loadAX v c = { c with a := v, x := v, p := withNZ v c.p } := by
  simp [loadAX, setNZ_eq]

/-- BIT (rule R183). -/
theorem bitA_eq (m : Byte) (c : Cpu) : bitA m c = bitSpec m c := by
  have h : ∀ (z n v : Bool) (p : Byte), putFlag .V v (putFlag .N n (putFlag .Z z p)) =
      (p &&& 0x3D#8) ||| (if z then 0x02#8 else 0#8) ||| (if n then 0x80#8 else 0#8)
        ||| (if v then 0x40#8 else 0#8) := by decide
  have h2 : m &&& 0xC0#8 = (if m.getLsbD 7 then 0x80#8 else 0#8) ||| (if m.getLsbD 6 then 0x40#8 else 0#8) := by
    revert m; decide
  unfold bitA bitSpec
  simp only [Cpu.put, h, h2, BitVec.or_assoc, decide_eq_true_eq]

/-! ### One-operand operations -/

theorem incByte_eq (m : Byte) (c : Cpu) :
    incByte m c = ((incSpec m c.p).1, { c with p := withC (incSpec m c.p).2 c.p }) := by
  simp only [incByte, incSpec, withC_self]
  congr 1
theorem decByte_eq (m : Byte) (c : Cpu) :
    decByte m c = ((decSpec m c.p).1, { c with p := withC (decSpec m c.p).2 c.p }) := by
  simp only [decByte, decSpec, withC_self]
  congr 1; revert m; decide
theorem aslByte_eq (m : Byte) (c : Cpu) :
    aslByte m c = ((aslSpec m c.p).1, { c with p := withC (aslSpec m c.p).2 c.p }) := by
  simp only [aslByte, aslSpec, put_C_eq, bit7_eq]
  congr 1
theorem lsrByte_eq (m : Byte) (c : Cpu) :
    lsrByte m c = ((lsrSpec m c.p).1, { c with p := withC (lsrSpec m c.p).2 c.p }) := by
  simp only [lsrByte, lsrSpec, put_C_eq, bit0_eq]
  congr 1; revert m; decide

/-- Rotating left brings the carry into bit 0. -/
theorem rol_byte (m p : Byte) :
    (m <<< 1) ||| (if getFlag p .C then 0x01#8 else 0#8) = BitVec.ofNat 8 (2 * m.toNat + carryIn p) := by
  rw [← ofBool_C]
  generalize getFlag p .C = k
  revert m; cases k <;> decide

/-- Rotating right brings the carry into bit 7. -/
theorem ror_byte (m p : Byte) :
    (m >>> 1) ||| (if getFlag p .C then 0x80#8 else 0#8) = BitVec.ofNat 8 (m.toNat / 2 + 128 * carryIn p) := by
  rw [← ofBool_C]
  generalize getFlag p .C = k
  revert m; cases k <;> decide

theorem rolByte_eq (m : Byte) (c : Cpu) :
    rolByte m c = ((rolSpec m c.p).1, { c with p := withC (rolSpec m c.p).2 c.p }) := by
  simp only [rolByte, rolSpec, put_C_eq, bit7_eq, Cpu.get]
  exact congrArg (·, _) (rol_byte m c.p)
theorem rorByte_eq (m : Byte) (c : Cpu) :
    rorByte m c = ((rorSpec m c.p).1, { c with p := withC (rorSpec m c.p).2 c.p }) := by
  simp only [rorByte, rorSpec, put_C_eq, bit0_eq, Cpu.get]
  exact congrArg (·, _) (ror_byte m c.p)

/-- The result byte of ARR (rule R266). -/
theorem arrByte_eq (m : Byte) (c : Cpu) :
    arrByte m c = BitVec.ofNat 8 ((c.a &&& m).toNat / 2 + 128 * carryIn c.p) := ror_byte (c.a &&& m) c.p

end Sys2Proof.Machine
end

