-- ==== Sys2Proof/Laws/Exec.lean ====
section
/-! SUPPORT. Every meaning is of one of a few shapes, with register operations that keep PC and the two fixed status
bits; and the induction that follows: a property kept by every access, by the register operations and by a charge is
kept by every instruction. -/

namespace Sys2Proof.Machine

/-! ### Register operations that keep PC and the fixed status bits -/

/-- Break clear and Unused set (rule R28). -/
def StatusOk (p : Byte) : Prop := getFlag p .B = false ∧ getFlag p .U = true

/-- A register operation that keeps PC and, once they hold, the fixed status bits. -/
def Keeps (f : Cpu → Cpu) : Prop := ∀ c, (f c).pc = c.pc ∧ (StatusOk c.p → StatusOk (f c).p)

theorem statusOk_putFlag {f : Flag} (hB : f ≠ .B) (hU : f ≠ .U) (b : Bool) {p : Byte} (h : StatusOk p) :
    StatusOk (putFlag f b p) :=
  ⟨by rw [getFlag_putFlag, if_neg (Ne.symm hB)]; exact h.1, by rw [getFlag_putFlag, if_neg (Ne.symm hU)]; exact h.2⟩

theorem keeps_id : Keeps id := fun _ => ⟨rfl, id⟩

theorem keeps_put {f : Flag} (hB : f ≠ .B) (hU : f ≠ .U) (b : Bool) : Keeps (Cpu.put f b) :=
  fun _ => ⟨rfl, statusOk_putFlag hB hU b⟩

theorem Keeps.comp {f g : Cpu → Cpu} (hg : Keeps g) (hf : Keeps f) : Keeps (fun c => g (f c)) :=
  fun c => ⟨(hg (f c)).1.trans (hf c).1, fun h => (hg (f c)).2 ((hf c).2 h)⟩

theorem keeps_setNZ (v : Byte) : Keeps (setNZ v) :=
  (keeps_put (f := .N) (by decide) (by decide) _).comp (keeps_put (f := .Z) (by decide) (by decide) _)

theorem keeps_loadA (v : Byte) : Keeps (loadA v) := fun c => keeps_setNZ v { c with a := v }
theorem keeps_loadX (v : Byte) : Keeps (loadX v) := fun c => keeps_setNZ v { c with x := v }
theorem keeps_loadY (v : Byte) : Keeps (loadY v) := fun c => keeps_setNZ v { c with y := v }
theorem keeps_loadAX (v : Byte) : Keeps (loadAX v) := fun c => keeps_setNZ v { c with a := v, x := v }
theorem keeps_andA (v : Byte) : Keeps (andA v) := fun c => keeps_loadA _ c
theorem keeps_oraA (v : Byte) : Keeps (oraA v) := fun c => keeps_loadA _ c
theorem keeps_eorA (v : Byte) : Keeps (eorA v) := fun c => keeps_loadA _ c

theorem keeps_bitA (v : Byte) : Keeps (bitA v) := fun _ =>
  ⟨rfl, fun h => statusOk_putFlag (by decide) (by decide) _ (statusOk_putFlag (by decide) (by decide) _
    (statusOk_putFlag (by decide) (by decide) _ h))⟩

theorem keeps_add (v : Byte) : Keeps (add v) := fun _ =>
  ⟨rfl, fun h => statusOk_putFlag (by decide) (by decide) _ (statusOk_putFlag (by decide) (by decide) _
    (statusOk_putFlag (by decide) (by decide) _ (statusOk_putFlag (by decide) (by decide) _ h)))⟩

theorem keeps_adc (v : Byte) : Keeps (adc v) := keeps_add v
theorem keeps_sbc (v : Byte) : Keeps (sbc v) := keeps_add _

theorem keeps_compare (r v : Byte) : Keeps (compare r v) := fun _ =>
  ⟨rfl, fun h => statusOk_putFlag (by decide) (by decide) _ (statusOk_putFlag (by decide) (by decide) _
    (statusOk_putFlag (by decide) (by decide) _ h))⟩

theorem keeps_cmpA (v : Byte) : Keeps (cmpA v) := fun c => keeps_compare c.a v c
theorem keeps_cmpX (v : Byte) : Keeps (cmpX v) := fun c => keeps_compare c.x v c
theorem keeps_cmpY (v : Byte) : Keeps (cmpY v) := fun c => keeps_compare c.y v c

theorem keeps_anc (v : Byte) : Keeps (anc v) := fun c =>
  ⟨(keeps_andA v c).1, fun h => statusOk_putFlag (by decide) (by decide) _ ((keeps_andA v c).2 h)⟩

theorem keeps_alr (v : Byte) : Keeps (alr v) := fun c =>
  ⟨rfl, fun h => (keeps_loadA _ (c.put .C ((c.a &&& v).getLsbD 0))).2 (statusOk_putFlag (by decide) (by decide) _ h)⟩

theorem keeps_arr (v : Byte) : Keeps (arr v) := fun c =>
  ⟨rfl, fun h => statusOk_putFlag (by decide) (by decide) _ (statusOk_putFlag (by decide) (by decide) _
    ((keeps_loadA (arrByte v c) c).2 h))⟩

theorem keeps_axs (v : Byte) : Keeps (axs v) := fun c =>
  ⟨rfl, fun h => (keeps_loadX ((c.a &&& c.x) - v) (c.put .C (decide (v.toNat ≤ (c.a &&& c.x).toNat)))).2
    (statusOk_putFlag (by decide) (by decide) _ h)⟩

theorem keeps_txs : Keeps (fun c => { c with sp := c.x }) := fun _ => ⟨rfl, id⟩

theorem statusOk_pulled (v : Byte) : StatusOk (pulledStatus v) := by
  unfold StatusOk; revert v; decide

theorem keeps_plp (v : Byte) : Keeps (fun c => { c with p := pulledStatus v }) :=
  fun _ => ⟨rfl, fun _ => statusOk_pulled v⟩

theorem keeps_incByte (v : Byte) : Keeps (fun c => (incByte v c).2) := keeps_id
theorem keeps_decByte (v : Byte) : Keeps (fun c => (decByte v c).2) := keeps_id
theorem keeps_aslByte (v : Byte) : Keeps (fun c => (aslByte v c).2) := keeps_put (by decide) (by decide) _
theorem keeps_lsrByte (v : Byte) : Keeps (fun c => (lsrByte v c).2) := keeps_put (by decide) (by decide) _
theorem keeps_rolByte (v : Byte) : Keeps (fun c => (rolByte v c).2) := keeps_put (by decide) (by decide) _
theorem keeps_rorByte (v : Byte) : Keeps (fun c => (rorByte v c).2) := keeps_put (by decide) (by decide) _

/-! ### The shapes -/

/-- The shapes a meaning can have. -/
inductive Shape : (State → Result) → Prop where
  | implied (n : Nat) (f : Cpu → Cpu) (h : Keeps f) : Shape (Machine.implied n f)
  | immediate (n : Nat) (v : Byte) (f : Byte → Cpu → Cpu) (h : ∀ v, Keeps (f v)) : Shape (Machine.immediate n v f)
  | readMem (n : Nat) (b : Bool) (m : MemOperand) (f : Byte → Cpu → Cpu) (h : ∀ v, Keeps (f v)) :
      Shape (Machine.readMem n b m f)
  | writeMem (n : Nat) (m : MemOperand) (v : Cpu → Byte) : Shape (Machine.writeMem n m v)
  | modifyMem (n : Nat) (m : MemOperand) (op : Byte → Cpu → Byte × Cpu) (post : Byte → Cpu → Cpu)
      (h : ∀ v, Keeps (fun c => (op v c).2)) (h' : ∀ v, Keeps (post v)) : Shape (Machine.modifyMem n m op post)
  | modifyAcc (n : Nat) (op : Byte → Cpu → Byte × Cpu) (h : ∀ v, Keeps (fun c => (op v c).2)) :
      Shape (Machine.modifyAcc n op)
  | branch (cond : Cpu → Bool) (d : Byte) : Shape (Machine.branch cond d)
  | unstable (k : Mnemonic) (n : Nat) : Shape (Machine.unstable k n)
  | push (n : Nat) (v : Cpu → Byte) : Shape (fun s => .next ((Machine.push (v s.cpu) s).charge n))
  | pull (n : Nat) (f : Byte → Cpu → Cpu) (h : ∀ v, Keeps (f v)) :
      Shape (fun s => .next (((Machine.pull s).2.mapCpu (f (Machine.pull s).1)).charge n))
  | jump (a : Addr) : Shape (execJmpAbs a)
  | jumpIndirect (a : Addr) : Shape (execJmpInd a)
  | call (a : Addr) : Shape (execJsrAbs a)
  | ret : Shape execRts
  | trap : Shape execBrk
  | trapReturn : Shape execRti

/-- Every instruction's meaning has one of the shapes. -/
theorem exec_shape : (i : Instr) → Shape (exec i)
  | .oraIndX z => .readMem 6 false (.indirectX z) oraA keeps_oraA
  | .sloIndX z => .modifyMem 8 (.indirectX z) aslByte oraA keeps_aslByte keeps_oraA
  | .nopZp04 z => .readMem 3 false (.zeropage z) (fun _ c => c) (fun _ => keeps_id)
  | .oraZp z => .readMem 3 false (.zeropage z) oraA keeps_oraA
  | .aslZp z => .modifyMem 5 (.zeropage z) aslByte setNZ keeps_aslByte keeps_setNZ
  | .sloZp z => .modifyMem 5 (.zeropage z) aslByte oraA keeps_aslByte keeps_oraA
  | .oraImm v => .immediate 2 v oraA keeps_oraA
  | .ancImm0B v => .immediate 2 v anc keeps_anc
  | .nopAbs a => .readMem 4 false (.absolute a) (fun _ c => c) (fun _ => keeps_id)
  | .oraAbs a => .readMem 4 false (.absolute a) oraA keeps_oraA
  | .aslAbs a => .modifyMem 6 (.absolute a) aslByte setNZ keeps_aslByte keeps_setNZ
  | .sloAbs a => .modifyMem 6 (.absolute a) aslByte oraA keeps_aslByte keeps_oraA
  | .bpl d => .branch (fun c => !c.get .N) d
  | .oraIndY z => .readMem 5 true (.indirectY z) oraA keeps_oraA
  | .sloIndY z => .modifyMem 8 (.indirectY z) aslByte oraA keeps_aslByte keeps_oraA
  | .nopZpX14 z => .readMem 4 false (.zeropageX z) (fun _ c => c) (fun _ => keeps_id)
  | .oraZpX z => .readMem 4 false (.zeropageX z) oraA keeps_oraA
  | .aslZpX z => .modifyMem 6 (.zeropageX z) aslByte setNZ keeps_aslByte keeps_setNZ
  | .sloZpX z => .modifyMem 6 (.zeropageX z) aslByte oraA keeps_aslByte keeps_oraA
  | .oraAbsY a => .readMem 4 true (.absoluteY a) oraA keeps_oraA
  | .sloAbsY a => .modifyMem 7 (.absoluteY a) aslByte oraA keeps_aslByte keeps_oraA
  | .nopAbsX1C a => .readMem 4 true (.absoluteX a) (fun _ c => c) (fun _ => keeps_id)
  | .oraAbsX a => .readMem 4 true (.absoluteX a) oraA keeps_oraA
  | .aslAbsX a => .modifyMem 7 (.absoluteX a) aslByte setNZ keeps_aslByte keeps_setNZ
  | .sloAbsX a => .modifyMem 7 (.absoluteX a) aslByte oraA keeps_aslByte keeps_oraA
  | .jsrAbs a => .call a
  | .andIndX z => .readMem 6 false (.indirectX z) andA keeps_andA
  | .rlaIndX z => .modifyMem 8 (.indirectX z) rolByte andA keeps_rolByte keeps_andA
  | .bitZp z => .readMem 3 false (.zeropage z) bitA keeps_bitA
  | .andZp z => .readMem 3 false (.zeropage z) andA keeps_andA
  | .rolZp z => .modifyMem 5 (.zeropage z) rolByte setNZ keeps_rolByte keeps_setNZ
  | .rlaZp z => .modifyMem 5 (.zeropage z) rolByte andA keeps_rolByte keeps_andA
  | .andImm v => .immediate 2 v andA keeps_andA
  | .ancImm2B v => .immediate 2 v anc keeps_anc
  | .bitAbs a => .readMem 4 false (.absolute a) bitA keeps_bitA
  | .andAbs a => .readMem 4 false (.absolute a) andA keeps_andA
  | .rolAbs a => .modifyMem 6 (.absolute a) rolByte setNZ keeps_rolByte keeps_setNZ
  | .rlaAbs a => .modifyMem 6 (.absolute a) rolByte andA keeps_rolByte keeps_andA
  | .bmi d => .branch (fun c => c.get .N) d
  | .andIndY z => .readMem 5 true (.indirectY z) andA keeps_andA
  | .rlaIndY z => .modifyMem 8 (.indirectY z) rolByte andA keeps_rolByte keeps_andA
  | .nopZpX34 z => .readMem 4 false (.zeropageX z) (fun _ c => c) (fun _ => keeps_id)
  | .andZpX z => .readMem 4 false (.zeropageX z) andA keeps_andA
  | .rolZpX z => .modifyMem 6 (.zeropageX z) rolByte setNZ keeps_rolByte keeps_setNZ
  | .rlaZpX z => .modifyMem 6 (.zeropageX z) rolByte andA keeps_rolByte keeps_andA
  | .andAbsY a => .readMem 4 true (.absoluteY a) andA keeps_andA
  | .rlaAbsY a => .modifyMem 7 (.absoluteY a) rolByte andA keeps_rolByte keeps_andA
  | .nopAbsX3C a => .readMem 4 true (.absoluteX a) (fun _ c => c) (fun _ => keeps_id)
  | .andAbsX a => .readMem 4 true (.absoluteX a) andA keeps_andA
  | .rolAbsX a => .modifyMem 7 (.absoluteX a) rolByte setNZ keeps_rolByte keeps_setNZ
  | .rlaAbsX a => .modifyMem 7 (.absoluteX a) rolByte andA keeps_rolByte keeps_andA
  | .eorIndX z => .readMem 6 false (.indirectX z) eorA keeps_eorA
  | .sreIndX z => .modifyMem 8 (.indirectX z) lsrByte eorA keeps_lsrByte keeps_eorA
  | .nopZp44 z => .readMem 3 false (.zeropage z) (fun _ c => c) (fun _ => keeps_id)
  | .eorZp z => .readMem 3 false (.zeropage z) eorA keeps_eorA
  | .lsrZp z => .modifyMem 5 (.zeropage z) lsrByte setNZ keeps_lsrByte keeps_setNZ
  | .sreZp z => .modifyMem 5 (.zeropage z) lsrByte eorA keeps_lsrByte keeps_eorA
  | .eorImm v => .immediate 2 v eorA keeps_eorA
  | .alrImm v => .immediate 2 v alr keeps_alr
  | .jmpAbs a => .jump a
  | .eorAbs a => .readMem 4 false (.absolute a) eorA keeps_eorA
  | .lsrAbs a => .modifyMem 6 (.absolute a) lsrByte setNZ keeps_lsrByte keeps_setNZ
  | .sreAbs a => .modifyMem 6 (.absolute a) lsrByte eorA keeps_lsrByte keeps_eorA
  | .bvc d => .branch (fun c => !c.get .V) d
  | .eorIndY z => .readMem 5 true (.indirectY z) eorA keeps_eorA
  | .sreIndY z => .modifyMem 8 (.indirectY z) lsrByte eorA keeps_lsrByte keeps_eorA
  | .nopZpX54 z => .readMem 4 false (.zeropageX z) (fun _ c => c) (fun _ => keeps_id)
  | .eorZpX z => .readMem 4 false (.zeropageX z) eorA keeps_eorA
  | .lsrZpX z => .modifyMem 6 (.zeropageX z) lsrByte setNZ keeps_lsrByte keeps_setNZ
  | .sreZpX z => .modifyMem 6 (.zeropageX z) lsrByte eorA keeps_lsrByte keeps_eorA
  | .eorAbsY a => .readMem 4 true (.absoluteY a) eorA keeps_eorA
  | .sreAbsY a => .modifyMem 7 (.absoluteY a) lsrByte eorA keeps_lsrByte keeps_eorA
  | .nopAbsX5C a => .readMem 4 true (.absoluteX a) (fun _ c => c) (fun _ => keeps_id)
  | .eorAbsX a => .readMem 4 true (.absoluteX a) eorA keeps_eorA
  | .lsrAbsX a => .modifyMem 7 (.absoluteX a) lsrByte setNZ keeps_lsrByte keeps_setNZ
  | .sreAbsX a => .modifyMem 7 (.absoluteX a) lsrByte eorA keeps_lsrByte keeps_eorA
  | .adcIndX z => .readMem 6 false (.indirectX z) adc keeps_adc
  | .rraIndX z => .modifyMem 8 (.indirectX z) rorByte adc keeps_rorByte keeps_adc
  | .nopZp64 z => .readMem 3 false (.zeropage z) (fun _ c => c) (fun _ => keeps_id)
  | .adcZp z => .readMem 3 false (.zeropage z) adc keeps_adc
  | .rorZp z => .modifyMem 5 (.zeropage z) rorByte setNZ keeps_rorByte keeps_setNZ
  | .rraZp z => .modifyMem 5 (.zeropage z) rorByte adc keeps_rorByte keeps_adc
  | .adcImm v => .immediate 2 v adc keeps_adc
  | .arrImm v => .immediate 2 v arr keeps_arr
  | .jmpInd a => .jumpIndirect a
  | .adcAbs a => .readMem 4 false (.absolute a) adc keeps_adc
  | .rorAbs a => .modifyMem 6 (.absolute a) rorByte setNZ keeps_rorByte keeps_setNZ
  | .rraAbs a => .modifyMem 6 (.absolute a) rorByte adc keeps_rorByte keeps_adc
  | .bvs d => .branch (fun c => c.get .V) d
  | .adcIndY z => .readMem 5 true (.indirectY z) adc keeps_adc
  | .rraIndY z => .modifyMem 8 (.indirectY z) rorByte adc keeps_rorByte keeps_adc
  | .nopZpX74 z => .readMem 4 false (.zeropageX z) (fun _ c => c) (fun _ => keeps_id)
  | .adcZpX z => .readMem 4 false (.zeropageX z) adc keeps_adc
  | .rorZpX z => .modifyMem 6 (.zeropageX z) rorByte setNZ keeps_rorByte keeps_setNZ
  | .rraZpX z => .modifyMem 6 (.zeropageX z) rorByte adc keeps_rorByte keeps_adc
  | .adcAbsY a => .readMem 4 true (.absoluteY a) adc keeps_adc
  | .rraAbsY a => .modifyMem 7 (.absoluteY a) rorByte adc keeps_rorByte keeps_adc
  | .nopAbsX7C a => .readMem 4 true (.absoluteX a) (fun _ c => c) (fun _ => keeps_id)
  | .adcAbsX a => .readMem 4 true (.absoluteX a) adc keeps_adc
  | .rorAbsX a => .modifyMem 7 (.absoluteX a) rorByte setNZ keeps_rorByte keeps_setNZ
  | .rraAbsX a => .modifyMem 7 (.absoluteX a) rorByte adc keeps_rorByte keeps_adc
  | .nopImm80 v => .immediate 2 v (fun _ c => c) (fun _ => keeps_id)
  | .staIndX z => .writeMem 6 (.indirectX z) (fun c => c.a)
  | .nopImm82 v => .immediate 2 v (fun _ c => c) (fun _ => keeps_id)
  | .saxIndX z => .writeMem 6 (.indirectX z) (fun c => c.a &&& c.x)
  | .styZp z => .writeMem 3 (.zeropage z) (fun c => c.y)
  | .staZp z => .writeMem 3 (.zeropage z) (fun c => c.a)
  | .stxZp z => .writeMem 3 (.zeropage z) (fun c => c.x)
  | .saxZp z => .writeMem 3 (.zeropage z) (fun c => c.a &&& c.x)
  | .nopImm89 v => .immediate 2 v (fun _ c => c) (fun _ => keeps_id)
  | .xaaImm v => .unstable .XAA 2
  | .styAbs a => .writeMem 4 (.absolute a) (fun c => c.y)
  | .staAbs a => .writeMem 4 (.absolute a) (fun c => c.a)
  | .stxAbs a => .writeMem 4 (.absolute a) (fun c => c.x)
  | .saxAbs a => .writeMem 4 (.absolute a) (fun c => c.a &&& c.x)
  | .bcc d => .branch (fun c => !c.get .C) d
  | .staIndY z => .writeMem 6 (.indirectY z) (fun c => c.a)
  | .shaIndY z => .unstable .SHA 6
  | .styZpX z => .writeMem 4 (.zeropageX z) (fun c => c.y)
  | .staZpX z => .writeMem 4 (.zeropageX z) (fun c => c.a)
  | .stxZpY z => .writeMem 4 (.zeropageY z) (fun c => c.x)
  | .saxZpY z => .writeMem 4 (.zeropageY z) (fun c => c.a &&& c.x)
  | .staAbsY a => .writeMem 5 (.absoluteY a) (fun c => c.a)
  | .tasAbsY a => .unstable .TAS 5
  | .shyAbsX a => .unstable .SHY 5
  | .staAbsX a => .writeMem 5 (.absoluteX a) (fun c => c.a)
  | .shxAbsY a => .unstable .SHX 5
  | .shaAbsY a => .unstable .SHA 5
  | .ldyImm v => .immediate 2 v loadY keeps_loadY
  | .ldaIndX z => .readMem 6 false (.indirectX z) loadA keeps_loadA
  | .ldxImm v => .immediate 2 v loadX keeps_loadX
  | .laxIndX z => .readMem 6 false (.indirectX z) loadAX keeps_loadAX
  | .ldyZp z => .readMem 3 false (.zeropage z) loadY keeps_loadY
  | .ldaZp z => .readMem 3 false (.zeropage z) loadA keeps_loadA
  | .ldxZp z => .readMem 3 false (.zeropage z) loadX keeps_loadX
  | .laxZp z => .readMem 3 false (.zeropage z) loadAX keeps_loadAX
  | .ldaImm v => .immediate 2 v loadA keeps_loadA
  | .lxaImm v => .unstable .LXA 2
  | .ldyAbs a => .readMem 4 false (.absolute a) loadY keeps_loadY
  | .ldaAbs a => .readMem 4 false (.absolute a) loadA keeps_loadA
  | .ldxAbs a => .readMem 4 false (.absolute a) loadX keeps_loadX
  | .laxAbs a => .readMem 4 false (.absolute a) loadAX keeps_loadAX
  | .bcs d => .branch (fun c => c.get .C) d
  | .ldaIndY z => .readMem 5 true (.indirectY z) loadA keeps_loadA
  | .laxIndY z => .readMem 5 true (.indirectY z) loadAX keeps_loadAX
  | .ldyZpX z => .readMem 4 false (.zeropageX z) loadY keeps_loadY
  | .ldaZpX z => .readMem 4 false (.zeropageX z) loadA keeps_loadA
  | .ldxZpY z => .readMem 4 false (.zeropageY z) loadX keeps_loadX
  | .laxZpY z => .readMem 4 false (.zeropageY z) loadAX keeps_loadAX
  | .ldaAbsY a => .readMem 4 true (.absoluteY a) loadA keeps_loadA
  | .lasAbsY a => .unstable .LAS 4
  | .ldyAbsX a => .readMem 4 true (.absoluteX a) loadY keeps_loadY
  | .ldaAbsX a => .readMem 4 true (.absoluteX a) loadA keeps_loadA
  | .ldxAbsY a => .readMem 4 true (.absoluteY a) loadX keeps_loadX
  | .laxAbsY a => .readMem 4 true (.absoluteY a) loadAX keeps_loadAX
  | .cpyImm v => .immediate 2 v cmpY keeps_cmpY
  | .cmpIndX z => .readMem 6 false (.indirectX z) cmpA keeps_cmpA
  | .nopImmC2 v => .immediate 2 v (fun _ c => c) (fun _ => keeps_id)
  | .dcpIndX z => .modifyMem 8 (.indirectX z) decByte cmpA keeps_decByte keeps_cmpA
  | .cpyZp z => .readMem 3 false (.zeropage z) cmpY keeps_cmpY
  | .cmpZp z => .readMem 3 false (.zeropage z) cmpA keeps_cmpA
  | .decZp z => .modifyMem 5 (.zeropage z) decByte setNZ keeps_decByte keeps_setNZ
  | .dcpZp z => .modifyMem 5 (.zeropage z) decByte cmpA keeps_decByte keeps_cmpA
  | .cmpImm v => .immediate 2 v cmpA keeps_cmpA
  | .axsImm v => .immediate 2 v axs keeps_axs
  | .cpyAbs a => .readMem 4 false (.absolute a) cmpY keeps_cmpY
  | .cmpAbs a => .readMem 4 false (.absolute a) cmpA keeps_cmpA
  | .decAbs a => .modifyMem 6 (.absolute a) decByte setNZ keeps_decByte keeps_setNZ
  | .dcpAbs a => .modifyMem 6 (.absolute a) decByte cmpA keeps_decByte keeps_cmpA
  | .bne d => .branch (fun c => !c.get .Z) d
  | .cmpIndY z => .readMem 5 true (.indirectY z) cmpA keeps_cmpA
  | .dcpIndY z => .modifyMem 8 (.indirectY z) decByte cmpA keeps_decByte keeps_cmpA
  | .nopZpXD4 z => .readMem 4 false (.zeropageX z) (fun _ c => c) (fun _ => keeps_id)
  | .cmpZpX z => .readMem 4 false (.zeropageX z) cmpA keeps_cmpA
  | .decZpX z => .modifyMem 6 (.zeropageX z) decByte setNZ keeps_decByte keeps_setNZ
  | .dcpZpX z => .modifyMem 6 (.zeropageX z) decByte cmpA keeps_decByte keeps_cmpA
  | .cmpAbsY a => .readMem 4 true (.absoluteY a) cmpA keeps_cmpA
  | .dcpAbsY a => .modifyMem 7 (.absoluteY a) decByte cmpA keeps_decByte keeps_cmpA
  | .nopAbsXDC a => .readMem 4 true (.absoluteX a) (fun _ c => c) (fun _ => keeps_id)
  | .cmpAbsX a => .readMem 4 true (.absoluteX a) cmpA keeps_cmpA
  | .decAbsX a => .modifyMem 7 (.absoluteX a) decByte setNZ keeps_decByte keeps_setNZ
  | .dcpAbsX a => .modifyMem 7 (.absoluteX a) decByte cmpA keeps_decByte keeps_cmpA
  | .cpxImm v => .immediate 2 v cmpX keeps_cmpX
  | .sbcIndX z => .readMem 6 false (.indirectX z) sbc keeps_sbc
  | .nopImmE2 v => .immediate 2 v (fun _ c => c) (fun _ => keeps_id)
  | .iscIndX z => .modifyMem 8 (.indirectX z) incByte sbc keeps_incByte keeps_sbc
  | .cpxZp z => .readMem 3 false (.zeropage z) cmpX keeps_cmpX
  | .sbcZp z => .readMem 3 false (.zeropage z) sbc keeps_sbc
  | .incZp z => .modifyMem 5 (.zeropage z) incByte setNZ keeps_incByte keeps_setNZ
  | .iscZp z => .modifyMem 5 (.zeropage z) incByte sbc keeps_incByte keeps_sbc
  | .sbcImm v => .immediate 2 v sbc keeps_sbc
  | .sbcImmEB v => .immediate 2 v sbc keeps_sbc
  | .cpxAbs a => .readMem 4 false (.absolute a) cmpX keeps_cmpX
  | .sbcAbs a => .readMem 4 false (.absolute a) sbc keeps_sbc
  | .incAbs a => .modifyMem 6 (.absolute a) incByte setNZ keeps_incByte keeps_setNZ
  | .iscAbs a => .modifyMem 6 (.absolute a) incByte sbc keeps_incByte keeps_sbc
  | .beq d => .branch (fun c => c.get .Z) d
  | .sbcIndY z => .readMem 5 true (.indirectY z) sbc keeps_sbc
  | .iscIndY z => .modifyMem 8 (.indirectY z) incByte sbc keeps_incByte keeps_sbc
  | .nopZpXF4 z => .readMem 4 false (.zeropageX z) (fun _ c => c) (fun _ => keeps_id)
  | .sbcZpX z => .readMem 4 false (.zeropageX z) sbc keeps_sbc
  | .incZpX z => .modifyMem 6 (.zeropageX z) incByte setNZ keeps_incByte keeps_setNZ
  | .iscZpX z => .modifyMem 6 (.zeropageX z) incByte sbc keeps_incByte keeps_sbc
  | .sbcAbsY a => .readMem 4 true (.absoluteY a) sbc keeps_sbc
  | .iscAbsY a => .modifyMem 7 (.absoluteY a) incByte sbc keeps_incByte keeps_sbc
  | .nopAbsXFC a => .readMem 4 true (.absoluteX a) (fun _ c => c) (fun _ => keeps_id)
  | .sbcAbsX a => .readMem 4 true (.absoluteX a) sbc keeps_sbc
  | .incAbsX a => .modifyMem 7 (.absoluteX a) incByte setNZ keeps_incByte keeps_setNZ
  | .iscAbsX a => .modifyMem 7 (.absoluteX a) incByte sbc keeps_incByte keeps_sbc
  | .brk => .trap
  | .jam02 => .unstable .JAM 2
  | .php => .push 3 fun c => pushedByBrk c.p
  | .aslA => .modifyAcc 2 aslByte keeps_aslByte
  | .jam12 => .unstable .JAM 2
  | .clc => .implied 2 (Cpu.put .C false) (keeps_put (by decide) (by decide) _)
  | .nop1A => .implied 2 id keeps_id
  | .jam22 => .unstable .JAM 2
  | .plp => .pull 4 (fun v c => { c with p := pulledStatus v }) keeps_plp
  | .rolA => .modifyAcc 2 rolByte keeps_rolByte
  | .jam32 => .unstable .JAM 2
  | .sec => .implied 2 (Cpu.put .C true) (keeps_put (by decide) (by decide) _)
  | .nop3A => .implied 2 id keeps_id
  | .rti => .trapReturn
  | .jam42 => .unstable .JAM 2
  | .pha => .push 3 fun c => c.a
  | .lsrA => .modifyAcc 2 lsrByte keeps_lsrByte
  | .jam52 => .unstable .JAM 2
  | .cli => .implied 2 (Cpu.put .I false) (keeps_put (by decide) (by decide) _)
  | .nop5A => .implied 2 id keeps_id
  | .rts => .ret
  | .jam62 => .unstable .JAM 2
  | .pla => .pull 4 loadA keeps_loadA
  | .rorA => .modifyAcc 2 rorByte keeps_rorByte
  | .jam72 => .unstable .JAM 2
  | .sei => .implied 2 (Cpu.put .I true) (keeps_put (by decide) (by decide) _)
  | .nop7A => .implied 2 id keeps_id
  | .dey => .implied 2 (fun c => loadY (c.y - 1#8) c) (fun c => keeps_loadY _ c)
  | .txa => .implied 2 (fun c => loadA c.x c) (fun c => keeps_loadA _ c)
  | .jam92 => .unstable .JAM 2
  | .tya => .implied 2 (fun c => loadA c.y c) (fun c => keeps_loadA _ c)
  | .txs => .implied 2 (fun c => { c with sp := c.x }) keeps_txs
  | .tay => .implied 2 (fun c => loadY c.a c) (fun c => keeps_loadY _ c)
  | .tax => .implied 2 (fun c => loadX c.a c) (fun c => keeps_loadX _ c)
  | .jamB2 => .unstable .JAM 2
  | .clv => .implied 2 (Cpu.put .V false) (keeps_put (by decide) (by decide) _)
  | .tsx => .implied 2 (fun c => loadX c.sp c) (fun c => keeps_loadX _ c)
  | .iny => .implied 2 (fun c => loadY (c.y + 1#8) c) (fun c => keeps_loadY _ c)
  | .dex => .implied 2 (fun c => loadX (c.x - 1#8) c) (fun c => keeps_loadX _ c)
  | .jamD2 => .unstable .JAM 2
  | .cld => .implied 2 (Cpu.put .D false) (keeps_put (by decide) (by decide) _)
  | .nopDA => .implied 2 id keeps_id
  | .inx => .implied 2 (fun c => loadX (c.x + 1#8) c) (fun c => keeps_loadX _ c)
  | .nop => .implied 2 id keeps_id
  | .jamF2 => .unstable .JAM 2
  | .sed => .implied 2 (Cpu.put .D true) (keeps_put (by decide) (by decide) _)
  | .nopFA => .implied 2 id keeps_id

/-! ### Induction over a meaning -/

/-- A property kept by every bus access, by every register operation that keeps the fixed status bits, and by a charge. -/
structure StepClosed (P : State → Prop) : Prop where
  read : ∀ a s, P s → P (busRead a s).2
  write : ∀ a v s, P s → P (busWrite a v s)
  cpu : ∀ f s, (∀ c : Cpu, StatusOk c.p → StatusOk (f c).p) → P s → P (s.mapCpu f)
  charge : ∀ n s, P s → P (s.charge n)

variable {P : State → Prop}

theorem StepClosed.read16 (H : StepClosed P) (a b : Addr) (s : State) (h : P s) : P (busRead16 a b s).2 :=
  H.read b _ (H.read a s h)

theorem StepClosed.resolve (H : StepClosed P) (m : MemOperand) (s : State) (h : P s) :
    P (Machine.resolve m s).2 := by
  cases m <;> first
    | exact h
    | exact H.read16 _ _ s h

theorem StepClosed.push (H : StepClosed P) (v : Byte) (s : State) (h : P s) : P (Machine.push v s) :=
  H.cpu (fun c => { c with sp := c.sp - 1#8 }) _ (fun _ k => k) (H.write _ v s h)

theorem StepClosed.pull (H : StepClosed P) (s : State) (h : P s) : P (Machine.pull s).2 :=
  H.read _ _ (H.cpu (fun c => { c with sp := c.sp + 1#8 }) s (fun _ k => k) h)

theorem StepClosed.fetch8 (H : StepClosed P) (s : State) (h : P s) : P (Machine.fetch8 s).2 :=
  H.cpu (fun c => { c with pc := c.pc + 1#16 }) _ (fun _ k => k) (H.read _ s h)

theorem StepClosed.fetchInstr (H : StepClosed P) (s : State) (h : P s) : P (Machine.fetchInstr s).2 := by
  unfold Machine.fetchInstr
  dsimp only
  split
  · exact H.fetch8 s h
  · exact H.fetch8 _ (H.fetch8 s h)
  · exact H.fetch8 _ (H.fetch8 _ (H.fetch8 s h))

theorem StepClosed.loadPc (H : StepClosed P) (v : Addr) (s : State) (h : P s) : P (Machine.loadPc v s) :=
  H.cpu (fun c => { c with pc := (busRead16 v (v + 1#16) s).1 }) _ (fun _ k => k) (H.read16 _ _ s h)

theorem StepClosed.takeException (H : StepClosed P) (ret : Addr) (status : Byte) (v : Addr) (s : State) (h : P s) :
    P (Machine.takeException ret status v s) :=
  H.loadPc v _ (H.cpu (Cpu.put .I true) _ (fun c => statusOk_putFlag (by decide) (by decide) true)
    (H.push _ _ (H.push _ _ (H.push _ s h))))

/-- A property closed in this way is kept by every instruction that answers a next state. -/
theorem StepClosed.exec (H : StepClosed P) {i : Instr} {s t : State} (he : Machine.exec i s = .next t) (h : P s) :
    P t := by
  have hs := exec_shape i
  revert he
  generalize Machine.exec i = e at hs
  intro he
  cases hs with
  | implied n f hf =>
    cases he
    exact H.charge n _ (H.cpu f s (fun c => (hf c).2) h)
  | immediate n v f hf =>
    cases he
    exact H.charge n _ (H.cpu (f v) s (fun c => (hf v c).2) h)
  | readMem n b m f hf =>
    cases he
    exact H.charge _ _ (H.cpu (f _) _ (fun c => (hf _ c).2) (H.read _ _ (H.resolve m s h)))
  | writeMem n m v =>
    cases he
    exact H.charge n _ (H.write _ _ _ (H.resolve m s h))
  | modifyMem n m op post ho hp =>
    cases he
    have k := H.write (Machine.resolve m s).1.addr
      (op (busRead (Machine.resolve m s).1.addr (Machine.resolve m s).2).1
        (busRead (Machine.resolve m s).1.addr (Machine.resolve m s).2).2.cpu).1 _
      (H.read (Machine.resolve m s).1.addr _ (H.resolve m s h))
    have k' := H.cpu (fun c => post
      (op (busRead (Machine.resolve m s).1.addr (Machine.resolve m s).2).1
        (busRead (Machine.resolve m s).1.addr (Machine.resolve m s).2).2.cpu).1
      (op (busRead (Machine.resolve m s).1.addr (Machine.resolve m s).2).1 c).2) _
      (fun c hc => (hp _ _).2 ((ho _ c).2 hc)) k
    have k'' := H.charge n _ k'
    rw [State.mapCpu, busWrite_cpu] at k''
    exact k''
  | modifyAcc n op ho =>
    cases he
    exact H.charge n _ (H.cpu _ s (fun c hc => (keeps_loadA _ _).2 ((ho _ c).2 hc)) h)
  | branch cond d =>
    unfold Machine.branch at he
    split at he
    · cases he
      exact H.charge _ _ (H.cpu (fun c => { c with pc := s.cpu.pc + sext16 d }) s (fun _ k => k) h)
    · cases he
      exact H.charge _ _ h
  | unstable k n =>
    unfold Machine.unstable at he
    split at he
    · cases he
      exact H.charge _ _ h
    · cases he
  | push n v =>
    cases he
    exact H.charge n _ (H.push _ s h)
  | pull n f hf =>
    cases he
    exact H.charge n _ (H.cpu (f _) _ (fun c => (hf _ c).2) (H.pull s h))
  | jump a =>
    cases he
    exact H.charge _ _ (H.cpu (fun c => { c with pc := a }) s (fun _ k => k) h)
  | jumpIndirect a =>
    cases he
    exact H.charge _ _ (H.cpu (fun c => { c with pc := _ }) _ (fun _ k => k) (H.read16 _ _ s h))
  | call a =>
    cases he
    exact H.charge _ _ (H.cpu (fun c => { c with pc := a }) _ (fun _ k => k) (H.push _ _ (H.push _ s h)))
  | ret =>
    cases he
    exact H.charge _ _ (H.cpu (fun c => { c with pc := _ }) _ (fun _ k => k) (H.pull _ (H.pull s h)))
  | trap =>
    cases he
    exact H.charge _ _ (H.takeException _ _ _ s h)
  | trapReturn =>
    cases he
    exact H.charge _ _ (H.cpu (fun c => { c with pc := _ }) _ (fun _ k => k)
      (H.pull _ (H.pull _ (H.cpu (fun c => { c with p := _ }) _ (fun _ _ => statusOk_pulled _) (H.pull s h)))))

/-- No instruction faults, and none is refused unless the policy for the unstable opcodes is to refuse them (rules R9,
R107). -/
theorem exec_next_or_unstable (i : Instr) (s : State) :
    (∃ t, exec i s = .next t) ∨
      (∃ k, exec i s = .refused (.unstableOpcode k) ∧ s.params.unstablePolicy = .refuse) := by
  have hs := exec_shape i
  generalize exec i = e at hs
  cases hs with
  | branch cond d => exact .inl (by unfold Machine.branch; split <;> exact ⟨_, rfl⟩)
  | unstable k n =>
    unfold Machine.unstable
    cases hp : s.params.unstablePolicy
    · exact .inl ⟨_, rfl⟩
    · exact .inr ⟨k, rfl, rfl⟩
  | _ => exact .inl ⟨_, rfl⟩

end Sys2Proof.Machine
end

