-- ==== Sys2Proof/Laws/Operands.lean ====
section
/-! SUPPORT. What resolving an operand changes, and what each shape of Machine/Operands.lean answers, said once. -/

namespace Sys2Proof.Machine

/-! ### Resolving -/

/-- Resolving an operand only drives the bus: the pointers of the indirect forms are read from RAM (rules R140, R141). -/
theorem resolve_frame (m : MemOperand) (s : State) : ∃ b, (resolve m s).2 = { s with busLast := b } := by
  have z (w : Byte) : (zpAddr w).toNat < 0x2000 := by
    have := w.isLt
    simp [zpAddr]
    omega
  cases m with
  | indirectX w =>
    simp only [resolve, busRead16, busRead_of_ram (z _)]
    exact ⟨_, rfl⟩
  | indirectY w =>
    simp only [resolve, busRead16, busRead_of_ram (z _)]
    exact ⟨_, rfl⟩
  | _ => exact ⟨s.busLast, rfl⟩

@[simp] theorem resolve_cpu (m : MemOperand) (s : State) : (resolve m s).2.cpu = s.cpu := by
  obtain ⟨b, h⟩ := resolve_frame m s; rw [h]
@[simp] theorem resolve_cyc (m : MemOperand) (s : State) : (resolve m s).2.cyc = s.cyc := by
  obtain ⟨b, h⟩ := resolve_frame m s; rw [h]
@[simp] theorem resolve_ram (m : MemOperand) (s : State) : (resolve m s).2.ram = s.ram := by
  obtain ⟨b, h⟩ := resolve_frame m s; rw [h]
@[simp] theorem resolve_ppu (m : MemOperand) (s : State) : (resolve m s).2.ppu = s.ppu := by
  obtain ⟨b, h⟩ := resolve_frame m s; rw [h]
@[simp] theorem resolve_cart (m : MemOperand) (s : State) : (resolve m s).2.cart = s.cart := by
  obtain ⟨b, h⟩ := resolve_frame m s; rw [h]
@[simp] theorem resolve_mapper (m : MemOperand) (s : State) : (resolve m s).2.mapper = s.mapper := by
  obtain ⟨b, h⟩ := resolve_frame m s; rw [h]

/-! ### The shapes -/

/-- The read class, in full. -/
theorem readMem_spec {f g : Byte → Cpu → Cpu} (h : ∀ v c, f v c = g v c) (base : Nat) (adder : Bool) (m : MemOperand)
    (s : State) :
    ∃ v crossed t, operandByte (.mem m) s = some (v, crossed, t) ∧
      readMem base adder m f s = .next
        { t with cpu := g v s.cpu, cyc := s.cyc + base + (if adder && crossed then 1 else 0) } := by
  refine ⟨(busRead (resolve m s).1.addr (resolve m s).2).1, (resolve m s).1.crossed,
    (busRead (resolve m s).1.addr (resolve m s).2).2, rfl, ?_⟩
  simp only [readMem, State.mapCpu, State.charge, h, busRead_cpu, resolve_cpu, busRead_cyc, resolve_cyc]
  generalize busRead (resolve m s).1.addr (resolve m s).2 = r
  generalize (resolve m s).1.crossed = k
  cases adder <;> cases k <;> rfl

/-- The immediate operand, in full. -/
theorem immediate_spec {f g : Byte → Cpu → Cpu} (h : ∀ v c, f v c = g v c) (base : Nat) (adder : Bool) (v : Byte)
    (s : State) :
    ∃ w crossed t, operandByte (.immediate v) s = some (w, crossed, t) ∧
      immediate base v f s = .next
        { t with cpu := g w s.cpu, cyc := s.cyc + base + (if adder && crossed then 1 else 0) } := by
  refine ⟨v, false, s, rfl, ?_⟩
  simp only [immediate, State.mapCpu, State.charge, h, Bool.and_false]
  rfl

/-- The write class, in full. -/
theorem writeMem_spec {v w : Cpu → Byte} (h : ∀ c, v c = w c) (base : Nat) (m : MemOperand) (s : State) :
    writeMem base m v s = .next ((busWrite (resolve m s).1.addr (w s.cpu) (resolve m s).2).charge base) := by
  simp only [writeMem, h, resolve_cpu]

/-- The read-modify-write class, in full. -/
theorem modifyMem_spec {op : Byte → Cpu → Byte × Cpu} {op' : Byte → Byte → Byte × Bool} {post post' : Byte → Cpu → Cpu}
    (ho : ∀ v c, op v c = ((op' v c.p).1, { c with p := withC (op' v c.p).2 c.p })) (hp : ∀ v c, post v c = post' v c)
    (base : Nat) (m : MemOperand) (s : State) :
    let ea := (resolve m s).1.addr
    let b := busRead ea (resolve m s).2
    let r := op' b.1 s.cpu.p
    let w := busWrite ea r.1 b.2
    modifyMem base m op post s =
      .next ({ w with cpu := post' r.1 { s.cpu with p := withC r.2 s.cpu.p } }.charge base) := by
  simp only [modifyMem, ho, hp, busRead_cpu, resolve_cpu]

end Sys2Proof.Machine
end

