-- ==== Sys2Proof/Laws/PerInstr.lean ====
section
/-! SUPPORT. What holds of every instruction as syntax, one lemma per constructor: its operand has the format its opcode's
table row gives, its encoding has the length of that format, and it is what its opcode decodes to with its operand
bytes (spec/30_encoding.md rules R100 to R102). -/

namespace Sys2Proof.Laws

/-- The form of an instruction agrees with its opcode's row. -/
def RowShape.Statement (i : Instr) : Prop :=
  i.operand.mode = i.row.mode ∧ (encode i).length = i.row.mode.bytes ∧ ∃ b c, i = decodeOp i.opcode b c

theorem RowShape.oraIndX (z : Byte) : RowShape.Statement (.oraIndX z) := ⟨rfl, rfl, z, 0#8, rfl⟩
theorem RowShape.sloIndX (z : Byte) : RowShape.Statement (.sloIndX z) := ⟨rfl, rfl, z, 0#8, rfl⟩
theorem RowShape.nopZp04 (z : Byte) : RowShape.Statement (.nopZp04 z) := ⟨rfl, rfl, z, 0#8, rfl⟩
theorem RowShape.oraZp (z : Byte) : RowShape.Statement (.oraZp z) := ⟨rfl, rfl, z, 0#8, rfl⟩
theorem RowShape.aslZp (z : Byte) : RowShape.Statement (.aslZp z) := ⟨rfl, rfl, z, 0#8, rfl⟩
theorem RowShape.sloZp (z : Byte) : RowShape.Statement (.sloZp z) := ⟨rfl, rfl, z, 0#8, rfl⟩
theorem RowShape.oraImm (v : Byte) : RowShape.Statement (.oraImm v) := ⟨rfl, rfl, v, 0#8, rfl⟩
theorem RowShape.ancImm0B (v : Byte) : RowShape.Statement (.ancImm0B v) := ⟨rfl, rfl, v, 0#8, rfl⟩
theorem RowShape.nopAbs (a : Addr) : RowShape.Statement (.nopAbs a) :=
  ⟨rfl, rfl, loByte a, hiByte a, congrArg Instr.nopAbs (wordOf_hiByte_loByte a).symm⟩
theorem RowShape.oraAbs (a : Addr) : RowShape.Statement (.oraAbs a) :=
  ⟨rfl, rfl, loByte a, hiByte a, congrArg Instr.oraAbs (wordOf_hiByte_loByte a).symm⟩
theorem RowShape.aslAbs (a : Addr) : RowShape.Statement (.aslAbs a) :=
  ⟨rfl, rfl, loByte a, hiByte a, congrArg Instr.aslAbs (wordOf_hiByte_loByte a).symm⟩
theorem RowShape.sloAbs (a : Addr) : RowShape.Statement (.sloAbs a) :=
  ⟨rfl, rfl, loByte a, hiByte a, congrArg Instr.sloAbs (wordOf_hiByte_loByte a).symm⟩
theorem RowShape.bpl (d : Byte) : RowShape.Statement (.bpl d) := ⟨rfl, rfl, d, 0#8, rfl⟩
theorem RowShape.oraIndY (z : Byte) : RowShape.Statement (.oraIndY z) := ⟨rfl, rfl, z, 0#8, rfl⟩
theorem RowShape.sloIndY (z : Byte) : RowShape.Statement (.sloIndY z) := ⟨rfl, rfl, z, 0#8, rfl⟩
theorem RowShape.nopZpX14 (z : Byte) : RowShape.Statement (.nopZpX14 z) := ⟨rfl, rfl, z, 0#8, rfl⟩
theorem RowShape.oraZpX (z : Byte) : RowShape.Statement (.oraZpX z) := ⟨rfl, rfl, z, 0#8, rfl⟩
theorem RowShape.aslZpX (z : Byte) : RowShape.Statement (.aslZpX z) := ⟨rfl, rfl, z, 0#8, rfl⟩
theorem RowShape.sloZpX (z : Byte) : RowShape.Statement (.sloZpX z) := ⟨rfl, rfl, z, 0#8, rfl⟩
theorem RowShape.oraAbsY (a : Addr) : RowShape.Statement (.oraAbsY a) :=
  ⟨rfl, rfl, loByte a, hiByte a, congrArg Instr.oraAbsY (wordOf_hiByte_loByte a).symm⟩
theorem RowShape.sloAbsY (a : Addr) : RowShape.Statement (.sloAbsY a) :=
  ⟨rfl, rfl, loByte a, hiByte a, congrArg Instr.sloAbsY (wordOf_hiByte_loByte a).symm⟩
theorem RowShape.nopAbsX1C (a : Addr) : RowShape.Statement (.nopAbsX1C a) :=
  ⟨rfl, rfl, loByte a, hiByte a, congrArg Instr.nopAbsX1C (wordOf_hiByte_loByte a).symm⟩
theorem RowShape.oraAbsX (a : Addr) : RowShape.Statement (.oraAbsX a) :=
  ⟨rfl, rfl, loByte a, hiByte a, congrArg Instr.oraAbsX (wordOf_hiByte_loByte a).symm⟩
theorem RowShape.aslAbsX (a : Addr) : RowShape.Statement (.aslAbsX a) :=
  ⟨rfl, rfl, loByte a, hiByte a, congrArg Instr.aslAbsX (wordOf_hiByte_loByte a).symm⟩
theorem RowShape.sloAbsX (a : Addr) : RowShape.Statement (.sloAbsX a) :=
  ⟨rfl, rfl, loByte a, hiByte a, congrArg Instr.sloAbsX (wordOf_hiByte_loByte a).symm⟩
theorem RowShape.jsrAbs (a : Addr) : RowShape.Statement (.jsrAbs a) :=
  ⟨rfl, rfl, loByte a, hiByte a, congrArg Instr.jsrAbs (wordOf_hiByte_loByte a).symm⟩
theorem RowShape.andIndX (z : Byte) : RowShape.Statement (.andIndX z) := ⟨rfl, rfl, z, 0#8, rfl⟩
theorem RowShape.rlaIndX (z : Byte) : RowShape.Statement (.rlaIndX z) := ⟨rfl, rfl, z, 0#8, rfl⟩
theorem RowShape.bitZp (z : Byte) : RowShape.Statement (.bitZp z) := ⟨rfl, rfl, z, 0#8, rfl⟩
theorem RowShape.andZp (z : Byte) : RowShape.Statement (.andZp z) := ⟨rfl, rfl, z, 0#8, rfl⟩
theorem RowShape.rolZp (z : Byte) : RowShape.Statement (.rolZp z) := ⟨rfl, rfl, z, 0#8, rfl⟩
theorem RowShape.rlaZp (z : Byte) : RowShape.Statement (.rlaZp z) := ⟨rfl, rfl, z, 0#8, rfl⟩
theorem RowShape.andImm (v : Byte) : RowShape.Statement (.andImm v) := ⟨rfl, rfl, v, 0#8, rfl⟩
theorem RowShape.ancImm2B (v : Byte) : RowShape.Statement (.ancImm2B v) := ⟨rfl, rfl, v, 0#8, rfl⟩
theorem RowShape.bitAbs (a : Addr) : RowShape.Statement (.bitAbs a) :=
  ⟨rfl, rfl, loByte a, hiByte a, congrArg Instr.bitAbs (wordOf_hiByte_loByte a).symm⟩
theorem RowShape.andAbs (a : Addr) : RowShape.Statement (.andAbs a) :=
  ⟨rfl, rfl, loByte a, hiByte a, congrArg Instr.andAbs (wordOf_hiByte_loByte a).symm⟩
theorem RowShape.rolAbs (a : Addr) : RowShape.Statement (.rolAbs a) :=
  ⟨rfl, rfl, loByte a, hiByte a, congrArg Instr.rolAbs (wordOf_hiByte_loByte a).symm⟩
theorem RowShape.rlaAbs (a : Addr) : RowShape.Statement (.rlaAbs a) :=
  ⟨rfl, rfl, loByte a, hiByte a, congrArg Instr.rlaAbs (wordOf_hiByte_loByte a).symm⟩
theorem RowShape.bmi (d : Byte) : RowShape.Statement (.bmi d) := ⟨rfl, rfl, d, 0#8, rfl⟩
theorem RowShape.andIndY (z : Byte) : RowShape.Statement (.andIndY z) := ⟨rfl, rfl, z, 0#8, rfl⟩
theorem RowShape.rlaIndY (z : Byte) : RowShape.Statement (.rlaIndY z) := ⟨rfl, rfl, z, 0#8, rfl⟩
theorem RowShape.nopZpX34 (z : Byte) : RowShape.Statement (.nopZpX34 z) := ⟨rfl, rfl, z, 0#8, rfl⟩
theorem RowShape.andZpX (z : Byte) : RowShape.Statement (.andZpX z) := ⟨rfl, rfl, z, 0#8, rfl⟩
theorem RowShape.rolZpX (z : Byte) : RowShape.Statement (.rolZpX z) := ⟨rfl, rfl, z, 0#8, rfl⟩
theorem RowShape.rlaZpX (z : Byte) : RowShape.Statement (.rlaZpX z) := ⟨rfl, rfl, z, 0#8, rfl⟩
theorem RowShape.andAbsY (a : Addr) : RowShape.Statement (.andAbsY a) :=
  ⟨rfl, rfl, loByte a, hiByte a, congrArg Instr.andAbsY (wordOf_hiByte_loByte a).symm⟩
theorem RowShape.rlaAbsY (a : Addr) : RowShape.Statement (.rlaAbsY a) :=
  ⟨rfl, rfl, loByte a, hiByte a, congrArg Instr.rlaAbsY (wordOf_hiByte_loByte a).symm⟩
theorem RowShape.nopAbsX3C (a : Addr) : RowShape.Statement (.nopAbsX3C a) :=
  ⟨rfl, rfl, loByte a, hiByte a, congrArg Instr.nopAbsX3C (wordOf_hiByte_loByte a).symm⟩
theorem RowShape.andAbsX (a : Addr) : RowShape.Statement (.andAbsX a) :=
  ⟨rfl, rfl, loByte a, hiByte a, congrArg Instr.andAbsX (wordOf_hiByte_loByte a).symm⟩
theorem RowShape.rolAbsX (a : Addr) : RowShape.Statement (.rolAbsX a) :=
  ⟨rfl, rfl, loByte a, hiByte a, congrArg Instr.rolAbsX (wordOf_hiByte_loByte a).symm⟩
theorem RowShape.rlaAbsX (a : Addr) : RowShape.Statement (.rlaAbsX a) :=
  ⟨rfl, rfl, loByte a, hiByte a, congrArg Instr.rlaAbsX (wordOf_hiByte_loByte a).symm⟩
theorem RowShape.eorIndX (z : Byte) : RowShape.Statement (.eorIndX z) := ⟨rfl, rfl, z, 0#8, rfl⟩
theorem RowShape.sreIndX (z : Byte) : RowShape.Statement (.sreIndX z) := ⟨rfl, rfl, z, 0#8, rfl⟩
theorem RowShape.nopZp44 (z : Byte) : RowShape.Statement (.nopZp44 z) := ⟨rfl, rfl, z, 0#8, rfl⟩
theorem RowShape.eorZp (z : Byte) : RowShape.Statement (.eorZp z) := ⟨rfl, rfl, z, 0#8, rfl⟩
theorem RowShape.lsrZp (z : Byte) : RowShape.Statement (.lsrZp z) := ⟨rfl, rfl, z, 0#8, rfl⟩
theorem RowShape.sreZp (z : Byte) : RowShape.Statement (.sreZp z) := ⟨rfl, rfl, z, 0#8, rfl⟩
theorem RowShape.eorImm (v : Byte) : RowShape.Statement (.eorImm v) := ⟨rfl, rfl, v, 0#8, rfl⟩
theorem RowShape.alrImm (v : Byte) : RowShape.Statement (.alrImm v) := ⟨rfl, rfl, v, 0#8, rfl⟩
theorem RowShape.jmpAbs (a : Addr) : RowShape.Statement (.jmpAbs a) :=
  ⟨rfl, rfl, loByte a, hiByte a, congrArg Instr.jmpAbs (wordOf_hiByte_loByte a).symm⟩
theorem RowShape.eorAbs (a : Addr) : RowShape.Statement (.eorAbs a) :=
  ⟨rfl, rfl, loByte a, hiByte a, congrArg Instr.eorAbs (wordOf_hiByte_loByte a).symm⟩
theorem RowShape.lsrAbs (a : Addr) : RowShape.Statement (.lsrAbs a) :=
  ⟨rfl, rfl, loByte a, hiByte a, congrArg Instr.lsrAbs (wordOf_hiByte_loByte a).symm⟩
theorem RowShape.sreAbs (a : Addr) : RowShape.Statement (.sreAbs a) :=
  ⟨rfl, rfl, loByte a, hiByte a, congrArg Instr.sreAbs (wordOf_hiByte_loByte a).symm⟩
theorem RowShape.bvc (d : Byte) : RowShape.Statement (.bvc d) := ⟨rfl, rfl, d, 0#8, rfl⟩
theorem RowShape.eorIndY (z : Byte) : RowShape.Statement (.eorIndY z) := ⟨rfl, rfl, z, 0#8, rfl⟩
theorem RowShape.sreIndY (z : Byte) : RowShape.Statement (.sreIndY z) := ⟨rfl, rfl, z, 0#8, rfl⟩
theorem RowShape.nopZpX54 (z : Byte) : RowShape.Statement (.nopZpX54 z) := ⟨rfl, rfl, z, 0#8, rfl⟩
theorem RowShape.eorZpX (z : Byte) : RowShape.Statement (.eorZpX z) := ⟨rfl, rfl, z, 0#8, rfl⟩
theorem RowShape.lsrZpX (z : Byte) : RowShape.Statement (.lsrZpX z) := ⟨rfl, rfl, z, 0#8, rfl⟩
theorem RowShape.sreZpX (z : Byte) : RowShape.Statement (.sreZpX z) := ⟨rfl, rfl, z, 0#8, rfl⟩
theorem RowShape.eorAbsY (a : Addr) : RowShape.Statement (.eorAbsY a) :=
  ⟨rfl, rfl, loByte a, hiByte a, congrArg Instr.eorAbsY (wordOf_hiByte_loByte a).symm⟩
theorem RowShape.sreAbsY (a : Addr) : RowShape.Statement (.sreAbsY a) :=
  ⟨rfl, rfl, loByte a, hiByte a, congrArg Instr.sreAbsY (wordOf_hiByte_loByte a).symm⟩
theorem RowShape.nopAbsX5C (a : Addr) : RowShape.Statement (.nopAbsX5C a) :=
  ⟨rfl, rfl, loByte a, hiByte a, congrArg Instr.nopAbsX5C (wordOf_hiByte_loByte a).symm⟩
theorem RowShape.eorAbsX (a : Addr) : RowShape.Statement (.eorAbsX a) :=
  ⟨rfl, rfl, loByte a, hiByte a, congrArg Instr.eorAbsX (wordOf_hiByte_loByte a).symm⟩
theorem RowShape.lsrAbsX (a : Addr) : RowShape.Statement (.lsrAbsX a) :=
  ⟨rfl, rfl, loByte a, hiByte a, congrArg Instr.lsrAbsX (wordOf_hiByte_loByte a).symm⟩
theorem RowShape.sreAbsX (a : Addr) : RowShape.Statement (.sreAbsX a) :=
  ⟨rfl, rfl, loByte a, hiByte a, congrArg Instr.sreAbsX (wordOf_hiByte_loByte a).symm⟩
theorem RowShape.adcIndX (z : Byte) : RowShape.Statement (.adcIndX z) := ⟨rfl, rfl, z, 0#8, rfl⟩
theorem RowShape.rraIndX (z : Byte) : RowShape.Statement (.rraIndX z) := ⟨rfl, rfl, z, 0#8, rfl⟩
theorem RowShape.nopZp64 (z : Byte) : RowShape.Statement (.nopZp64 z) := ⟨rfl, rfl, z, 0#8, rfl⟩
theorem RowShape.adcZp (z : Byte) : RowShape.Statement (.adcZp z) := ⟨rfl, rfl, z, 0#8, rfl⟩
theorem RowShape.rorZp (z : Byte) : RowShape.Statement (.rorZp z) := ⟨rfl, rfl, z, 0#8, rfl⟩
theorem RowShape.rraZp (z : Byte) : RowShape.Statement (.rraZp z) := ⟨rfl, rfl, z, 0#8, rfl⟩
theorem RowShape.adcImm (v : Byte) : RowShape.Statement (.adcImm v) := ⟨rfl, rfl, v, 0#8, rfl⟩
theorem RowShape.arrImm (v : Byte) : RowShape.Statement (.arrImm v) := ⟨rfl, rfl, v, 0#8, rfl⟩
theorem RowShape.jmpInd (a : Addr) : RowShape.Statement (.jmpInd a) :=
  ⟨rfl, rfl, loByte a, hiByte a, congrArg Instr.jmpInd (wordOf_hiByte_loByte a).symm⟩
theorem RowShape.adcAbs (a : Addr) : RowShape.Statement (.adcAbs a) :=
  ⟨rfl, rfl, loByte a, hiByte a, congrArg Instr.adcAbs (wordOf_hiByte_loByte a).symm⟩
theorem RowShape.rorAbs (a : Addr) : RowShape.Statement (.rorAbs a) :=
  ⟨rfl, rfl, loByte a, hiByte a, congrArg Instr.rorAbs (wordOf_hiByte_loByte a).symm⟩
theorem RowShape.rraAbs (a : Addr) : RowShape.Statement (.rraAbs a) :=
  ⟨rfl, rfl, loByte a, hiByte a, congrArg Instr.rraAbs (wordOf_hiByte_loByte a).symm⟩
theorem RowShape.bvs (d : Byte) : RowShape.Statement (.bvs d) := ⟨rfl, rfl, d, 0#8, rfl⟩
theorem RowShape.adcIndY (z : Byte) : RowShape.Statement (.adcIndY z) := ⟨rfl, rfl, z, 0#8, rfl⟩
theorem RowShape.rraIndY (z : Byte) : RowShape.Statement (.rraIndY z) := ⟨rfl, rfl, z, 0#8, rfl⟩
theorem RowShape.nopZpX74 (z : Byte) : RowShape.Statement (.nopZpX74 z) := ⟨rfl, rfl, z, 0#8, rfl⟩
theorem RowShape.adcZpX (z : Byte) : RowShape.Statement (.adcZpX z) := ⟨rfl, rfl, z, 0#8, rfl⟩
theorem RowShape.rorZpX (z : Byte) : RowShape.Statement (.rorZpX z) := ⟨rfl, rfl, z, 0#8, rfl⟩
theorem RowShape.rraZpX (z : Byte) : RowShape.Statement (.rraZpX z) := ⟨rfl, rfl, z, 0#8, rfl⟩
theorem RowShape.adcAbsY (a : Addr) : RowShape.Statement (.adcAbsY a) :=
  ⟨rfl, rfl, loByte a, hiByte a, congrArg Instr.adcAbsY (wordOf_hiByte_loByte a).symm⟩
theorem RowShape.rraAbsY (a : Addr) : RowShape.Statement (.rraAbsY a) :=
  ⟨rfl, rfl, loByte a, hiByte a, congrArg Instr.rraAbsY (wordOf_hiByte_loByte a).symm⟩
theorem RowShape.nopAbsX7C (a : Addr) : RowShape.Statement (.nopAbsX7C a) :=
  ⟨rfl, rfl, loByte a, hiByte a, congrArg Instr.nopAbsX7C (wordOf_hiByte_loByte a).symm⟩
theorem RowShape.adcAbsX (a : Addr) : RowShape.Statement (.adcAbsX a) :=
  ⟨rfl, rfl, loByte a, hiByte a, congrArg Instr.adcAbsX (wordOf_hiByte_loByte a).symm⟩
theorem RowShape.rorAbsX (a : Addr) : RowShape.Statement (.rorAbsX a) :=
  ⟨rfl, rfl, loByte a, hiByte a, congrArg Instr.rorAbsX (wordOf_hiByte_loByte a).symm⟩
theorem RowShape.rraAbsX (a : Addr) : RowShape.Statement (.rraAbsX a) :=
  ⟨rfl, rfl, loByte a, hiByte a, congrArg Instr.rraAbsX (wordOf_hiByte_loByte a).symm⟩
theorem RowShape.nopImm80 (v : Byte) : RowShape.Statement (.nopImm80 v) := ⟨rfl, rfl, v, 0#8, rfl⟩
theorem RowShape.staIndX (z : Byte) : RowShape.Statement (.staIndX z) := ⟨rfl, rfl, z, 0#8, rfl⟩
theorem RowShape.nopImm82 (v : Byte) : RowShape.Statement (.nopImm82 v) := ⟨rfl, rfl, v, 0#8, rfl⟩
theorem RowShape.saxIndX (z : Byte) : RowShape.Statement (.saxIndX z) := ⟨rfl, rfl, z, 0#8, rfl⟩
theorem RowShape.styZp (z : Byte) : RowShape.Statement (.styZp z) := ⟨rfl, rfl, z, 0#8, rfl⟩
theorem RowShape.staZp (z : Byte) : RowShape.Statement (.staZp z) := ⟨rfl, rfl, z, 0#8, rfl⟩
theorem RowShape.stxZp (z : Byte) : RowShape.Statement (.stxZp z) := ⟨rfl, rfl, z, 0#8, rfl⟩
theorem RowShape.saxZp (z : Byte) : RowShape.Statement (.saxZp z) := ⟨rfl, rfl, z, 0#8, rfl⟩
theorem RowShape.nopImm89 (v : Byte) : RowShape.Statement (.nopImm89 v) := ⟨rfl, rfl, v, 0#8, rfl⟩
theorem RowShape.xaaImm (v : Byte) : RowShape.Statement (.xaaImm v) := ⟨rfl, rfl, v, 0#8, rfl⟩
theorem RowShape.styAbs (a : Addr) : RowShape.Statement (.styAbs a) :=
  ⟨rfl, rfl, loByte a, hiByte a, congrArg Instr.styAbs (wordOf_hiByte_loByte a).symm⟩
theorem RowShape.staAbs (a : Addr) : RowShape.Statement (.staAbs a) :=
  ⟨rfl, rfl, loByte a, hiByte a, congrArg Instr.staAbs (wordOf_hiByte_loByte a).symm⟩
theorem RowShape.stxAbs (a : Addr) : RowShape.Statement (.stxAbs a) :=
  ⟨rfl, rfl, loByte a, hiByte a, congrArg Instr.stxAbs (wordOf_hiByte_loByte a).symm⟩
theorem RowShape.saxAbs (a : Addr) : RowShape.Statement (.saxAbs a) :=
  ⟨rfl, rfl, loByte a, hiByte a, congrArg Instr.saxAbs (wordOf_hiByte_loByte a).symm⟩
theorem RowShape.bcc (d : Byte) : RowShape.Statement (.bcc d) := ⟨rfl, rfl, d, 0#8, rfl⟩
theorem RowShape.staIndY (z : Byte) : RowShape.Statement (.staIndY z) := ⟨rfl, rfl, z, 0#8, rfl⟩
theorem RowShape.shaIndY (z : Byte) : RowShape.Statement (.shaIndY z) := ⟨rfl, rfl, z, 0#8, rfl⟩
theorem RowShape.styZpX (z : Byte) : RowShape.Statement (.styZpX z) := ⟨rfl, rfl, z, 0#8, rfl⟩
theorem RowShape.staZpX (z : Byte) : RowShape.Statement (.staZpX z) := ⟨rfl, rfl, z, 0#8, rfl⟩
theorem RowShape.stxZpY (z : Byte) : RowShape.Statement (.stxZpY z) := ⟨rfl, rfl, z, 0#8, rfl⟩
theorem RowShape.saxZpY (z : Byte) : RowShape.Statement (.saxZpY z) := ⟨rfl, rfl, z, 0#8, rfl⟩
theorem RowShape.staAbsY (a : Addr) : RowShape.Statement (.staAbsY a) :=
  ⟨rfl, rfl, loByte a, hiByte a, congrArg Instr.staAbsY (wordOf_hiByte_loByte a).symm⟩
theorem RowShape.tasAbsY (a : Addr) : RowShape.Statement (.tasAbsY a) :=
  ⟨rfl, rfl, loByte a, hiByte a, congrArg Instr.tasAbsY (wordOf_hiByte_loByte a).symm⟩
theorem RowShape.shyAbsX (a : Addr) : RowShape.Statement (.shyAbsX a) :=
  ⟨rfl, rfl, loByte a, hiByte a, congrArg Instr.shyAbsX (wordOf_hiByte_loByte a).symm⟩
theorem RowShape.staAbsX (a : Addr) : RowShape.Statement (.staAbsX a) :=
  ⟨rfl, rfl, loByte a, hiByte a, congrArg Instr.staAbsX (wordOf_hiByte_loByte a).symm⟩
theorem RowShape.shxAbsY (a : Addr) : RowShape.Statement (.shxAbsY a) :=
  ⟨rfl, rfl, loByte a, hiByte a, congrArg Instr.shxAbsY (wordOf_hiByte_loByte a).symm⟩
theorem RowShape.shaAbsY (a : Addr) : RowShape.Statement (.shaAbsY a) :=
  ⟨rfl, rfl, loByte a, hiByte a, congrArg Instr.shaAbsY (wordOf_hiByte_loByte a).symm⟩
theorem RowShape.ldyImm (v : Byte) : RowShape.Statement (.ldyImm v) := ⟨rfl, rfl, v, 0#8, rfl⟩
theorem RowShape.ldaIndX (z : Byte) : RowShape.Statement (.ldaIndX z) := ⟨rfl, rfl, z, 0#8, rfl⟩
theorem RowShape.ldxImm (v : Byte) : RowShape.Statement (.ldxImm v) := ⟨rfl, rfl, v, 0#8, rfl⟩
theorem RowShape.laxIndX (z : Byte) : RowShape.Statement (.laxIndX z) := ⟨rfl, rfl, z, 0#8, rfl⟩
theorem RowShape.ldyZp (z : Byte) : RowShape.Statement (.ldyZp z) := ⟨rfl, rfl, z, 0#8, rfl⟩
theorem RowShape.ldaZp (z : Byte) : RowShape.Statement (.ldaZp z) := ⟨rfl, rfl, z, 0#8, rfl⟩
theorem RowShape.ldxZp (z : Byte) : RowShape.Statement (.ldxZp z) := ⟨rfl, rfl, z, 0#8, rfl⟩
theorem RowShape.laxZp (z : Byte) : RowShape.Statement (.laxZp z) := ⟨rfl, rfl, z, 0#8, rfl⟩
theorem RowShape.ldaImm (v : Byte) : RowShape.Statement (.ldaImm v) := ⟨rfl, rfl, v, 0#8, rfl⟩
theorem RowShape.lxaImm (v : Byte) : RowShape.Statement (.lxaImm v) := ⟨rfl, rfl, v, 0#8, rfl⟩
theorem RowShape.ldyAbs (a : Addr) : RowShape.Statement (.ldyAbs a) :=
  ⟨rfl, rfl, loByte a, hiByte a, congrArg Instr.ldyAbs (wordOf_hiByte_loByte a).symm⟩
theorem RowShape.ldaAbs (a : Addr) : RowShape.Statement (.ldaAbs a) :=
  ⟨rfl, rfl, loByte a, hiByte a, congrArg Instr.ldaAbs (wordOf_hiByte_loByte a).symm⟩
theorem RowShape.ldxAbs (a : Addr) : RowShape.Statement (.ldxAbs a) :=
  ⟨rfl, rfl, loByte a, hiByte a, congrArg Instr.ldxAbs (wordOf_hiByte_loByte a).symm⟩
theorem RowShape.laxAbs (a : Addr) : RowShape.Statement (.laxAbs a) :=
  ⟨rfl, rfl, loByte a, hiByte a, congrArg Instr.laxAbs (wordOf_hiByte_loByte a).symm⟩
theorem RowShape.bcs (d : Byte) : RowShape.Statement (.bcs d) := ⟨rfl, rfl, d, 0#8, rfl⟩
theorem RowShape.ldaIndY (z : Byte) : RowShape.Statement (.ldaIndY z) := ⟨rfl, rfl, z, 0#8, rfl⟩
theorem RowShape.laxIndY (z : Byte) : RowShape.Statement (.laxIndY z) := ⟨rfl, rfl, z, 0#8, rfl⟩
theorem RowShape.ldyZpX (z : Byte) : RowShape.Statement (.ldyZpX z) := ⟨rfl, rfl, z, 0#8, rfl⟩
theorem RowShape.ldaZpX (z : Byte) : RowShape.Statement (.ldaZpX z) := ⟨rfl, rfl, z, 0#8, rfl⟩
theorem RowShape.ldxZpY (z : Byte) : RowShape.Statement (.ldxZpY z) := ⟨rfl, rfl, z, 0#8, rfl⟩
theorem RowShape.laxZpY (z : Byte) : RowShape.Statement (.laxZpY z) := ⟨rfl, rfl, z, 0#8, rfl⟩
theorem RowShape.ldaAbsY (a : Addr) : RowShape.Statement (.ldaAbsY a) :=
  ⟨rfl, rfl, loByte a, hiByte a, congrArg Instr.ldaAbsY (wordOf_hiByte_loByte a).symm⟩
theorem RowShape.lasAbsY (a : Addr) : RowShape.Statement (.lasAbsY a) :=
  ⟨rfl, rfl, loByte a, hiByte a, congrArg Instr.lasAbsY (wordOf_hiByte_loByte a).symm⟩
theorem RowShape.ldyAbsX (a : Addr) : RowShape.Statement (.ldyAbsX a) :=
  ⟨rfl, rfl, loByte a, hiByte a, congrArg Instr.ldyAbsX (wordOf_hiByte_loByte a).symm⟩
theorem RowShape.ldaAbsX (a : Addr) : RowShape.Statement (.ldaAbsX a) :=
  ⟨rfl, rfl, loByte a, hiByte a, congrArg Instr.ldaAbsX (wordOf_hiByte_loByte a).symm⟩
theorem RowShape.ldxAbsY (a : Addr) : RowShape.Statement (.ldxAbsY a) :=
  ⟨rfl, rfl, loByte a, hiByte a, congrArg Instr.ldxAbsY (wordOf_hiByte_loByte a).symm⟩
theorem RowShape.laxAbsY (a : Addr) : RowShape.Statement (.laxAbsY a) :=
  ⟨rfl, rfl, loByte a, hiByte a, congrArg Instr.laxAbsY (wordOf_hiByte_loByte a).symm⟩
theorem RowShape.cpyImm (v : Byte) : RowShape.Statement (.cpyImm v) := ⟨rfl, rfl, v, 0#8, rfl⟩
theorem RowShape.cmpIndX (z : Byte) : RowShape.Statement (.cmpIndX z) := ⟨rfl, rfl, z, 0#8, rfl⟩
theorem RowShape.nopImmC2 (v : Byte) : RowShape.Statement (.nopImmC2 v) := ⟨rfl, rfl, v, 0#8, rfl⟩
theorem RowShape.dcpIndX (z : Byte) : RowShape.Statement (.dcpIndX z) := ⟨rfl, rfl, z, 0#8, rfl⟩
theorem RowShape.cpyZp (z : Byte) : RowShape.Statement (.cpyZp z) := ⟨rfl, rfl, z, 0#8, rfl⟩
theorem RowShape.cmpZp (z : Byte) : RowShape.Statement (.cmpZp z) := ⟨rfl, rfl, z, 0#8, rfl⟩
theorem RowShape.decZp (z : Byte) : RowShape.Statement (.decZp z) := ⟨rfl, rfl, z, 0#8, rfl⟩
theorem RowShape.dcpZp (z : Byte) : RowShape.Statement (.dcpZp z) := ⟨rfl, rfl, z, 0#8, rfl⟩
theorem RowShape.cmpImm (v : Byte) : RowShape.Statement (.cmpImm v) := ⟨rfl, rfl, v, 0#8, rfl⟩
theorem RowShape.axsImm (v : Byte) : RowShape.Statement (.axsImm v) := ⟨rfl, rfl, v, 0#8, rfl⟩
theorem RowShape.cpyAbs (a : Addr) : RowShape.Statement (.cpyAbs a) :=
  ⟨rfl, rfl, loByte a, hiByte a, congrArg Instr.cpyAbs (wordOf_hiByte_loByte a).symm⟩
theorem RowShape.cmpAbs (a : Addr) : RowShape.Statement (.cmpAbs a) :=
  ⟨rfl, rfl, loByte a, hiByte a, congrArg Instr.cmpAbs (wordOf_hiByte_loByte a).symm⟩
theorem RowShape.decAbs (a : Addr) : RowShape.Statement (.decAbs a) :=
  ⟨rfl, rfl, loByte a, hiByte a, congrArg Instr.decAbs (wordOf_hiByte_loByte a).symm⟩
theorem RowShape.dcpAbs (a : Addr) : RowShape.Statement (.dcpAbs a) :=
  ⟨rfl, rfl, loByte a, hiByte a, congrArg Instr.dcpAbs (wordOf_hiByte_loByte a).symm⟩
theorem RowShape.bne (d : Byte) : RowShape.Statement (.bne d) := ⟨rfl, rfl, d, 0#8, rfl⟩
theorem RowShape.cmpIndY (z : Byte) : RowShape.Statement (.cmpIndY z) := ⟨rfl, rfl, z, 0#8, rfl⟩
theorem RowShape.dcpIndY (z : Byte) : RowShape.Statement (.dcpIndY z) := ⟨rfl, rfl, z, 0#8, rfl⟩
theorem RowShape.nopZpXD4 (z : Byte) : RowShape.Statement (.nopZpXD4 z) := ⟨rfl, rfl, z, 0#8, rfl⟩
theorem RowShape.cmpZpX (z : Byte) : RowShape.Statement (.cmpZpX z) := ⟨rfl, rfl, z, 0#8, rfl⟩
theorem RowShape.decZpX (z : Byte) : RowShape.Statement (.decZpX z) := ⟨rfl, rfl, z, 0#8, rfl⟩
theorem RowShape.dcpZpX (z : Byte) : RowShape.Statement (.dcpZpX z) := ⟨rfl, rfl, z, 0#8, rfl⟩
theorem RowShape.cmpAbsY (a : Addr) : RowShape.Statement (.cmpAbsY a) :=
  ⟨rfl, rfl, loByte a, hiByte a, congrArg Instr.cmpAbsY (wordOf_hiByte_loByte a).symm⟩
theorem RowShape.dcpAbsY (a : Addr) : RowShape.Statement (.dcpAbsY a) :=
  ⟨rfl, rfl, loByte a, hiByte a, congrArg Instr.dcpAbsY (wordOf_hiByte_loByte a).symm⟩
theorem RowShape.nopAbsXDC (a : Addr) : RowShape.Statement (.nopAbsXDC a) :=
  ⟨rfl, rfl, loByte a, hiByte a, congrArg Instr.nopAbsXDC (wordOf_hiByte_loByte a).symm⟩
theorem RowShape.cmpAbsX (a : Addr) : RowShape.Statement (.cmpAbsX a) :=
  ⟨rfl, rfl, loByte a, hiByte a, congrArg Instr.cmpAbsX (wordOf_hiByte_loByte a).symm⟩
theorem RowShape.decAbsX (a : Addr) : RowShape.Statement (.decAbsX a) :=
  ⟨rfl, rfl, loByte a, hiByte a, congrArg Instr.decAbsX (wordOf_hiByte_loByte a).symm⟩
theorem RowShape.dcpAbsX (a : Addr) : RowShape.Statement (.dcpAbsX a) :=
  ⟨rfl, rfl, loByte a, hiByte a, congrArg Instr.dcpAbsX (wordOf_hiByte_loByte a).symm⟩
theorem RowShape.cpxImm (v : Byte) : RowShape.Statement (.cpxImm v) := ⟨rfl, rfl, v, 0#8, rfl⟩
theorem RowShape.sbcIndX (z : Byte) : RowShape.Statement (.sbcIndX z) := ⟨rfl, rfl, z, 0#8, rfl⟩
theorem RowShape.nopImmE2 (v : Byte) : RowShape.Statement (.nopImmE2 v) := ⟨rfl, rfl, v, 0#8, rfl⟩
theorem RowShape.iscIndX (z : Byte) : RowShape.Statement (.iscIndX z) := ⟨rfl, rfl, z, 0#8, rfl⟩
theorem RowShape.cpxZp (z : Byte) : RowShape.Statement (.cpxZp z) := ⟨rfl, rfl, z, 0#8, rfl⟩
theorem RowShape.sbcZp (z : Byte) : RowShape.Statement (.sbcZp z) := ⟨rfl, rfl, z, 0#8, rfl⟩
theorem RowShape.incZp (z : Byte) : RowShape.Statement (.incZp z) := ⟨rfl, rfl, z, 0#8, rfl⟩
theorem RowShape.iscZp (z : Byte) : RowShape.Statement (.iscZp z) := ⟨rfl, rfl, z, 0#8, rfl⟩
theorem RowShape.sbcImm (v : Byte) : RowShape.Statement (.sbcImm v) := ⟨rfl, rfl, v, 0#8, rfl⟩
theorem RowShape.sbcImmEB (v : Byte) : RowShape.Statement (.sbcImmEB v) := ⟨rfl, rfl, v, 0#8, rfl⟩
theorem RowShape.cpxAbs (a : Addr) : RowShape.Statement (.cpxAbs a) :=
  ⟨rfl, rfl, loByte a, hiByte a, congrArg Instr.cpxAbs (wordOf_hiByte_loByte a).symm⟩
theorem RowShape.sbcAbs (a : Addr) : RowShape.Statement (.sbcAbs a) :=
  ⟨rfl, rfl, loByte a, hiByte a, congrArg Instr.sbcAbs (wordOf_hiByte_loByte a).symm⟩
theorem RowShape.incAbs (a : Addr) : RowShape.Statement (.incAbs a) :=
  ⟨rfl, rfl, loByte a, hiByte a, congrArg Instr.incAbs (wordOf_hiByte_loByte a).symm⟩
theorem RowShape.iscAbs (a : Addr) : RowShape.Statement (.iscAbs a) :=
  ⟨rfl, rfl, loByte a, hiByte a, congrArg Instr.iscAbs (wordOf_hiByte_loByte a).symm⟩
theorem RowShape.beq (d : Byte) : RowShape.Statement (.beq d) := ⟨rfl, rfl, d, 0#8, rfl⟩
theorem RowShape.sbcIndY (z : Byte) : RowShape.Statement (.sbcIndY z) := ⟨rfl, rfl, z, 0#8, rfl⟩
theorem RowShape.iscIndY (z : Byte) : RowShape.Statement (.iscIndY z) := ⟨rfl, rfl, z, 0#8, rfl⟩
theorem RowShape.nopZpXF4 (z : Byte) : RowShape.Statement (.nopZpXF4 z) := ⟨rfl, rfl, z, 0#8, rfl⟩
theorem RowShape.sbcZpX (z : Byte) : RowShape.Statement (.sbcZpX z) := ⟨rfl, rfl, z, 0#8, rfl⟩
theorem RowShape.incZpX (z : Byte) : RowShape.Statement (.incZpX z) := ⟨rfl, rfl, z, 0#8, rfl⟩
theorem RowShape.iscZpX (z : Byte) : RowShape.Statement (.iscZpX z) := ⟨rfl, rfl, z, 0#8, rfl⟩
theorem RowShape.sbcAbsY (a : Addr) : RowShape.Statement (.sbcAbsY a) :=
  ⟨rfl, rfl, loByte a, hiByte a, congrArg Instr.sbcAbsY (wordOf_hiByte_loByte a).symm⟩
theorem RowShape.iscAbsY (a : Addr) : RowShape.Statement (.iscAbsY a) :=
  ⟨rfl, rfl, loByte a, hiByte a, congrArg Instr.iscAbsY (wordOf_hiByte_loByte a).symm⟩
theorem RowShape.nopAbsXFC (a : Addr) : RowShape.Statement (.nopAbsXFC a) :=
  ⟨rfl, rfl, loByte a, hiByte a, congrArg Instr.nopAbsXFC (wordOf_hiByte_loByte a).symm⟩
theorem RowShape.sbcAbsX (a : Addr) : RowShape.Statement (.sbcAbsX a) :=
  ⟨rfl, rfl, loByte a, hiByte a, congrArg Instr.sbcAbsX (wordOf_hiByte_loByte a).symm⟩
theorem RowShape.incAbsX (a : Addr) : RowShape.Statement (.incAbsX a) :=
  ⟨rfl, rfl, loByte a, hiByte a, congrArg Instr.incAbsX (wordOf_hiByte_loByte a).symm⟩
theorem RowShape.iscAbsX (a : Addr) : RowShape.Statement (.iscAbsX a) :=
  ⟨rfl, rfl, loByte a, hiByte a, congrArg Instr.iscAbsX (wordOf_hiByte_loByte a).symm⟩
theorem RowShape.brk : RowShape.Statement .brk := ⟨rfl, rfl, 0#8, 0#8, rfl⟩
theorem RowShape.jam02 : RowShape.Statement .jam02 := ⟨rfl, rfl, 0#8, 0#8, rfl⟩
theorem RowShape.php : RowShape.Statement .php := ⟨rfl, rfl, 0#8, 0#8, rfl⟩
theorem RowShape.aslA : RowShape.Statement .aslA := ⟨rfl, rfl, 0#8, 0#8, rfl⟩
theorem RowShape.jam12 : RowShape.Statement .jam12 := ⟨rfl, rfl, 0#8, 0#8, rfl⟩
theorem RowShape.clc : RowShape.Statement .clc := ⟨rfl, rfl, 0#8, 0#8, rfl⟩
theorem RowShape.nop1A : RowShape.Statement .nop1A := ⟨rfl, rfl, 0#8, 0#8, rfl⟩
theorem RowShape.jam22 : RowShape.Statement .jam22 := ⟨rfl, rfl, 0#8, 0#8, rfl⟩
theorem RowShape.plp : RowShape.Statement .plp := ⟨rfl, rfl, 0#8, 0#8, rfl⟩
theorem RowShape.rolA : RowShape.Statement .rolA := ⟨rfl, rfl, 0#8, 0#8, rfl⟩
theorem RowShape.jam32 : RowShape.Statement .jam32 := ⟨rfl, rfl, 0#8, 0#8, rfl⟩
theorem RowShape.sec : RowShape.Statement .sec := ⟨rfl, rfl, 0#8, 0#8, rfl⟩
theorem RowShape.nop3A : RowShape.Statement .nop3A := ⟨rfl, rfl, 0#8, 0#8, rfl⟩
theorem RowShape.rti : RowShape.Statement .rti := ⟨rfl, rfl, 0#8, 0#8, rfl⟩
theorem RowShape.jam42 : RowShape.Statement .jam42 := ⟨rfl, rfl, 0#8, 0#8, rfl⟩
theorem RowShape.pha : RowShape.Statement .pha := ⟨rfl, rfl, 0#8, 0#8, rfl⟩
theorem RowShape.lsrA : RowShape.Statement .lsrA := ⟨rfl, rfl, 0#8, 0#8, rfl⟩
theorem RowShape.jam52 : RowShape.Statement .jam52 := ⟨rfl, rfl, 0#8, 0#8, rfl⟩
theorem RowShape.cli : RowShape.Statement .cli := ⟨rfl, rfl, 0#8, 0#8, rfl⟩
theorem RowShape.nop5A : RowShape.Statement .nop5A := ⟨rfl, rfl, 0#8, 0#8, rfl⟩
theorem RowShape.rts : RowShape.Statement .rts := ⟨rfl, rfl, 0#8, 0#8, rfl⟩
theorem RowShape.jam62 : RowShape.Statement .jam62 := ⟨rfl, rfl, 0#8, 0#8, rfl⟩
theorem RowShape.pla : RowShape.Statement .pla := ⟨rfl, rfl, 0#8, 0#8, rfl⟩
theorem RowShape.rorA : RowShape.Statement .rorA := ⟨rfl, rfl, 0#8, 0#8, rfl⟩
theorem RowShape.jam72 : RowShape.Statement .jam72 := ⟨rfl, rfl, 0#8, 0#8, rfl⟩
theorem RowShape.sei : RowShape.Statement .sei := ⟨rfl, rfl, 0#8, 0#8, rfl⟩
theorem RowShape.nop7A : RowShape.Statement .nop7A := ⟨rfl, rfl, 0#8, 0#8, rfl⟩
theorem RowShape.dey : RowShape.Statement .dey := ⟨rfl, rfl, 0#8, 0#8, rfl⟩
theorem RowShape.txa : RowShape.Statement .txa := ⟨rfl, rfl, 0#8, 0#8, rfl⟩
theorem RowShape.jam92 : RowShape.Statement .jam92 := ⟨rfl, rfl, 0#8, 0#8, rfl⟩
theorem RowShape.tya : RowShape.Statement .tya := ⟨rfl, rfl, 0#8, 0#8, rfl⟩
theorem RowShape.txs : RowShape.Statement .txs := ⟨rfl, rfl, 0#8, 0#8, rfl⟩
theorem RowShape.tay : RowShape.Statement .tay := ⟨rfl, rfl, 0#8, 0#8, rfl⟩
theorem RowShape.tax : RowShape.Statement .tax := ⟨rfl, rfl, 0#8, 0#8, rfl⟩
theorem RowShape.jamB2 : RowShape.Statement .jamB2 := ⟨rfl, rfl, 0#8, 0#8, rfl⟩
theorem RowShape.clv : RowShape.Statement .clv := ⟨rfl, rfl, 0#8, 0#8, rfl⟩
theorem RowShape.tsx : RowShape.Statement .tsx := ⟨rfl, rfl, 0#8, 0#8, rfl⟩
theorem RowShape.iny : RowShape.Statement .iny := ⟨rfl, rfl, 0#8, 0#8, rfl⟩
theorem RowShape.dex : RowShape.Statement .dex := ⟨rfl, rfl, 0#8, 0#8, rfl⟩
theorem RowShape.jamD2 : RowShape.Statement .jamD2 := ⟨rfl, rfl, 0#8, 0#8, rfl⟩
theorem RowShape.cld : RowShape.Statement .cld := ⟨rfl, rfl, 0#8, 0#8, rfl⟩
theorem RowShape.nopDA : RowShape.Statement .nopDA := ⟨rfl, rfl, 0#8, 0#8, rfl⟩
theorem RowShape.inx : RowShape.Statement .inx := ⟨rfl, rfl, 0#8, 0#8, rfl⟩
theorem RowShape.nop : RowShape.Statement .nop := ⟨rfl, rfl, 0#8, 0#8, rfl⟩
theorem RowShape.jamF2 : RowShape.Statement .jamF2 := ⟨rfl, rfl, 0#8, 0#8, rfl⟩
theorem RowShape.sed : RowShape.Statement .sed := ⟨rfl, rfl, 0#8, 0#8, rfl⟩
theorem RowShape.nopFA : RowShape.Statement .nopFA := ⟨rfl, rfl, 0#8, 0#8, rfl⟩

/-- Every instruction has the form of its opcode's row. -/
theorem rowShape : (i : Instr) → RowShape.Statement i
  | .oraIndX z => RowShape.oraIndX z
  | .sloIndX z => RowShape.sloIndX z
  | .nopZp04 z => RowShape.nopZp04 z
  | .oraZp z => RowShape.oraZp z
  | .aslZp z => RowShape.aslZp z
  | .sloZp z => RowShape.sloZp z
  | .oraImm v => RowShape.oraImm v
  | .ancImm0B v => RowShape.ancImm0B v
  | .nopAbs a => RowShape.nopAbs a
  | .oraAbs a => RowShape.oraAbs a
  | .aslAbs a => RowShape.aslAbs a
  | .sloAbs a => RowShape.sloAbs a
  | .bpl d => RowShape.bpl d
  | .oraIndY z => RowShape.oraIndY z
  | .sloIndY z => RowShape.sloIndY z
  | .nopZpX14 z => RowShape.nopZpX14 z
  | .oraZpX z => RowShape.oraZpX z
  | .aslZpX z => RowShape.aslZpX z
  | .sloZpX z => RowShape.sloZpX z
  | .oraAbsY a => RowShape.oraAbsY a
  | .sloAbsY a => RowShape.sloAbsY a
  | .nopAbsX1C a => RowShape.nopAbsX1C a
  | .oraAbsX a => RowShape.oraAbsX a
  | .aslAbsX a => RowShape.aslAbsX a
  | .sloAbsX a => RowShape.sloAbsX a
  | .jsrAbs a => RowShape.jsrAbs a
  | .andIndX z => RowShape.andIndX z
  | .rlaIndX z => RowShape.rlaIndX z
  | .bitZp z => RowShape.bitZp z
  | .andZp z => RowShape.andZp z
  | .rolZp z => RowShape.rolZp z
  | .rlaZp z => RowShape.rlaZp z
  | .andImm v => RowShape.andImm v
  | .ancImm2B v => RowShape.ancImm2B v
  | .bitAbs a => RowShape.bitAbs a
  | .andAbs a => RowShape.andAbs a
  | .rolAbs a => RowShape.rolAbs a
  | .rlaAbs a => RowShape.rlaAbs a
  | .bmi d => RowShape.bmi d
  | .andIndY z => RowShape.andIndY z
  | .rlaIndY z => RowShape.rlaIndY z
  | .nopZpX34 z => RowShape.nopZpX34 z
  | .andZpX z => RowShape.andZpX z
  | .rolZpX z => RowShape.rolZpX z
  | .rlaZpX z => RowShape.rlaZpX z
  | .andAbsY a => RowShape.andAbsY a
  | .rlaAbsY a => RowShape.rlaAbsY a
  | .nopAbsX3C a => RowShape.nopAbsX3C a
  | .andAbsX a => RowShape.andAbsX a
  | .rolAbsX a => RowShape.rolAbsX a
  | .rlaAbsX a => RowShape.rlaAbsX a
  | .eorIndX z => RowShape.eorIndX z
  | .sreIndX z => RowShape.sreIndX z
  | .nopZp44 z => RowShape.nopZp44 z
  | .eorZp z => RowShape.eorZp z
  | .lsrZp z => RowShape.lsrZp z
  | .sreZp z => RowShape.sreZp z
  | .eorImm v => RowShape.eorImm v
  | .alrImm v => RowShape.alrImm v
  | .jmpAbs a => RowShape.jmpAbs a
  | .eorAbs a => RowShape.eorAbs a
  | .lsrAbs a => RowShape.lsrAbs a
  | .sreAbs a => RowShape.sreAbs a
  | .bvc d => RowShape.bvc d
  | .eorIndY z => RowShape.eorIndY z
  | .sreIndY z => RowShape.sreIndY z
  | .nopZpX54 z => RowShape.nopZpX54 z
  | .eorZpX z => RowShape.eorZpX z
  | .lsrZpX z => RowShape.lsrZpX z
  | .sreZpX z => RowShape.sreZpX z
  | .eorAbsY a => RowShape.eorAbsY a
  | .sreAbsY a => RowShape.sreAbsY a
  | .nopAbsX5C a => RowShape.nopAbsX5C a
  | .eorAbsX a => RowShape.eorAbsX a
  | .lsrAbsX a => RowShape.lsrAbsX a
  | .sreAbsX a => RowShape.sreAbsX a
  | .adcIndX z => RowShape.adcIndX z
  | .rraIndX z => RowShape.rraIndX z
  | .nopZp64 z => RowShape.nopZp64 z
  | .adcZp z => RowShape.adcZp z
  | .rorZp z => RowShape.rorZp z
  | .rraZp z => RowShape.rraZp z
  | .adcImm v => RowShape.adcImm v
  | .arrImm v => RowShape.arrImm v
  | .jmpInd a => RowShape.jmpInd a
  | .adcAbs a => RowShape.adcAbs a
  | .rorAbs a => RowShape.rorAbs a
  | .rraAbs a => RowShape.rraAbs a
  | .bvs d => RowShape.bvs d
  | .adcIndY z => RowShape.adcIndY z
  | .rraIndY z => RowShape.rraIndY z
  | .nopZpX74 z => RowShape.nopZpX74 z
  | .adcZpX z => RowShape.adcZpX z
  | .rorZpX z => RowShape.rorZpX z
  | .rraZpX z => RowShape.rraZpX z
  | .adcAbsY a => RowShape.adcAbsY a
  | .rraAbsY a => RowShape.rraAbsY a
  | .nopAbsX7C a => RowShape.nopAbsX7C a
  | .adcAbsX a => RowShape.adcAbsX a
  | .rorAbsX a => RowShape.rorAbsX a
  | .rraAbsX a => RowShape.rraAbsX a
  | .nopImm80 v => RowShape.nopImm80 v
  | .staIndX z => RowShape.staIndX z
  | .nopImm82 v => RowShape.nopImm82 v
  | .saxIndX z => RowShape.saxIndX z
  | .styZp z => RowShape.styZp z
  | .staZp z => RowShape.staZp z
  | .stxZp z => RowShape.stxZp z
  | .saxZp z => RowShape.saxZp z
  | .nopImm89 v => RowShape.nopImm89 v
  | .xaaImm v => RowShape.xaaImm v
  | .styAbs a => RowShape.styAbs a
  | .staAbs a => RowShape.staAbs a
  | .stxAbs a => RowShape.stxAbs a
  | .saxAbs a => RowShape.saxAbs a
  | .bcc d => RowShape.bcc d
  | .staIndY z => RowShape.staIndY z
  | .shaIndY z => RowShape.shaIndY z
  | .styZpX z => RowShape.styZpX z
  | .staZpX z => RowShape.staZpX z
  | .stxZpY z => RowShape.stxZpY z
  | .saxZpY z => RowShape.saxZpY z
  | .staAbsY a => RowShape.staAbsY a
  | .tasAbsY a => RowShape.tasAbsY a
  | .shyAbsX a => RowShape.shyAbsX a
  | .staAbsX a => RowShape.staAbsX a
  | .shxAbsY a => RowShape.shxAbsY a
  | .shaAbsY a => RowShape.shaAbsY a
  | .ldyImm v => RowShape.ldyImm v
  | .ldaIndX z => RowShape.ldaIndX z
  | .ldxImm v => RowShape.ldxImm v
  | .laxIndX z => RowShape.laxIndX z
  | .ldyZp z => RowShape.ldyZp z
  | .ldaZp z => RowShape.ldaZp z
  | .ldxZp z => RowShape.ldxZp z
  | .laxZp z => RowShape.laxZp z
  | .ldaImm v => RowShape.ldaImm v
  | .lxaImm v => RowShape.lxaImm v
  | .ldyAbs a => RowShape.ldyAbs a
  | .ldaAbs a => RowShape.ldaAbs a
  | .ldxAbs a => RowShape.ldxAbs a
  | .laxAbs a => RowShape.laxAbs a
  | .bcs d => RowShape.bcs d
  | .ldaIndY z => RowShape.ldaIndY z
  | .laxIndY z => RowShape.laxIndY z
  | .ldyZpX z => RowShape.ldyZpX z
  | .ldaZpX z => RowShape.ldaZpX z
  | .ldxZpY z => RowShape.ldxZpY z
  | .laxZpY z => RowShape.laxZpY z
  | .ldaAbsY a => RowShape.ldaAbsY a
  | .lasAbsY a => RowShape.lasAbsY a
  | .ldyAbsX a => RowShape.ldyAbsX a
  | .ldaAbsX a => RowShape.ldaAbsX a
  | .ldxAbsY a => RowShape.ldxAbsY a
  | .laxAbsY a => RowShape.laxAbsY a
  | .cpyImm v => RowShape.cpyImm v
  | .cmpIndX z => RowShape.cmpIndX z
  | .nopImmC2 v => RowShape.nopImmC2 v
  | .dcpIndX z => RowShape.dcpIndX z
  | .cpyZp z => RowShape.cpyZp z
  | .cmpZp z => RowShape.cmpZp z
  | .decZp z => RowShape.decZp z
  | .dcpZp z => RowShape.dcpZp z
  | .cmpImm v => RowShape.cmpImm v
  | .axsImm v => RowShape.axsImm v
  | .cpyAbs a => RowShape.cpyAbs a
  | .cmpAbs a => RowShape.cmpAbs a
  | .decAbs a => RowShape.decAbs a
  | .dcpAbs a => RowShape.dcpAbs a
  | .bne d => RowShape.bne d
  | .cmpIndY z => RowShape.cmpIndY z
  | .dcpIndY z => RowShape.dcpIndY z
  | .nopZpXD4 z => RowShape.nopZpXD4 z
  | .cmpZpX z => RowShape.cmpZpX z
  | .decZpX z => RowShape.decZpX z
  | .dcpZpX z => RowShape.dcpZpX z
  | .cmpAbsY a => RowShape.cmpAbsY a
  | .dcpAbsY a => RowShape.dcpAbsY a
  | .nopAbsXDC a => RowShape.nopAbsXDC a
  | .cmpAbsX a => RowShape.cmpAbsX a
  | .decAbsX a => RowShape.decAbsX a
  | .dcpAbsX a => RowShape.dcpAbsX a
  | .cpxImm v => RowShape.cpxImm v
  | .sbcIndX z => RowShape.sbcIndX z
  | .nopImmE2 v => RowShape.nopImmE2 v
  | .iscIndX z => RowShape.iscIndX z
  | .cpxZp z => RowShape.cpxZp z
  | .sbcZp z => RowShape.sbcZp z
  | .incZp z => RowShape.incZp z
  | .iscZp z => RowShape.iscZp z
  | .sbcImm v => RowShape.sbcImm v
  | .sbcImmEB v => RowShape.sbcImmEB v
  | .cpxAbs a => RowShape.cpxAbs a
  | .sbcAbs a => RowShape.sbcAbs a
  | .incAbs a => RowShape.incAbs a
  | .iscAbs a => RowShape.iscAbs a
  | .beq d => RowShape.beq d
  | .sbcIndY z => RowShape.sbcIndY z
  | .iscIndY z => RowShape.iscIndY z
  | .nopZpXF4 z => RowShape.nopZpXF4 z
  | .sbcZpX z => RowShape.sbcZpX z
  | .incZpX z => RowShape.incZpX z
  | .iscZpX z => RowShape.iscZpX z
  | .sbcAbsY a => RowShape.sbcAbsY a
  | .iscAbsY a => RowShape.iscAbsY a
  | .nopAbsXFC a => RowShape.nopAbsXFC a
  | .sbcAbsX a => RowShape.sbcAbsX a
  | .incAbsX a => RowShape.incAbsX a
  | .iscAbsX a => RowShape.iscAbsX a
  | .brk => RowShape.brk
  | .jam02 => RowShape.jam02
  | .php => RowShape.php
  | .aslA => RowShape.aslA
  | .jam12 => RowShape.jam12
  | .clc => RowShape.clc
  | .nop1A => RowShape.nop1A
  | .jam22 => RowShape.jam22
  | .plp => RowShape.plp
  | .rolA => RowShape.rolA
  | .jam32 => RowShape.jam32
  | .sec => RowShape.sec
  | .nop3A => RowShape.nop3A
  | .rti => RowShape.rti
  | .jam42 => RowShape.jam42
  | .pha => RowShape.pha
  | .lsrA => RowShape.lsrA
  | .jam52 => RowShape.jam52
  | .cli => RowShape.cli
  | .nop5A => RowShape.nop5A
  | .rts => RowShape.rts
  | .jam62 => RowShape.jam62
  | .pla => RowShape.pla
  | .rorA => RowShape.rorA
  | .jam72 => RowShape.jam72
  | .sei => RowShape.sei
  | .nop7A => RowShape.nop7A
  | .dey => RowShape.dey
  | .txa => RowShape.txa
  | .jam92 => RowShape.jam92
  | .tya => RowShape.tya
  | .txs => RowShape.txs
  | .tay => RowShape.tay
  | .tax => RowShape.tax
  | .jamB2 => RowShape.jamB2
  | .clv => RowShape.clv
  | .tsx => RowShape.tsx
  | .iny => RowShape.iny
  | .dex => RowShape.dex
  | .jamD2 => RowShape.jamD2
  | .cld => RowShape.cld
  | .nopDA => RowShape.nopDA
  | .inx => RowShape.inx
  | .nop => RowShape.nop
  | .jamF2 => RowShape.jamF2
  | .sed => RowShape.sed
  | .nopFA => RowShape.nopFA

end Sys2Proof.Laws
end

