-- ==== Sys2Proof/Laws/Forms.lean ====
section
/-! SUPPORT. From a row of the opcode table to the behaviour of its instructions: to prove one of the predicates of
Safety.lean about a list of forms, it is enough to look at the instruction that each opcode decodes to. -/

namespace Sys2Proof.Machine

/-- An instruction with the opcode of a form is what that opcode decodes to. -/
theorem eq_decodeOp {i : Instr} {op : Byte} (h : i.opcode = op) : ∃ b c, i = decodeOp op b c := by
  obtain ⟨_, _, b, c, hd⟩ := Laws.rowShape i
  exact ⟨b, c, h ▸ hd⟩

/-- The read and immediate classes. -/
theorem readsAs_of {f g : Byte → Cpu → Cpu} (h : ∀ v c, f v c = g v c) {l : List Form}
    (hl : ∀ form ∈ l, ∀ b c s, (decodeOp form.opcode b c).operand.mode = form.mode ∧
      ((∃ m, (decodeOp form.opcode b c).operand = .mem m ∧
          exec (decodeOp form.opcode b c) s = readMem form.cycles form.adder m f s) ∨
       (∃ v, (decodeOp form.opcode b c).operand = .immediate v ∧
          exec (decodeOp form.opcode b c) s = immediate form.cycles v f s))) : ReadsAs l g := by
  intro form hm i s hi
  obtain ⟨b, c, rfl⟩ := eq_decodeOp hi
  obtain ⟨h1, ⟨m, ho, he⟩ | ⟨v, ho, he⟩⟩ := hl form hm b c s
  · rw [ho, he]
    exact ⟨ho ▸ h1, readMem_spec h _ _ m s⟩
  · rw [ho, he]
    exact ⟨ho ▸ h1, immediate_spec h _ _ v s⟩

/-- The write class. -/
theorem storesAs_of {v w : Cpu → Byte} (h : ∀ c, v c = w c) {l : List Form}
    (hl : ∀ form ∈ l, ∀ b c s, (decodeOp form.opcode b c).operand.mode = form.mode ∧
      ∃ m, (decodeOp form.opcode b c).operand = .mem m ∧
        exec (decodeOp form.opcode b c) s = writeMem form.cycles m v s) : StoresAs l w := by
  intro form hm i s hi
  obtain ⟨b, c, rfl⟩ := eq_decodeOp hi
  obtain ⟨h1, m, ho, he⟩ := hl form hm b c s
  exact ⟨h1, m, ho, he.trans (writeMem_spec h _ m s)⟩

/-- The read-modify-write class. -/
theorem modifiesAs_of {op : Byte → Cpu → Byte × Cpu} {op' : Byte → Byte → Byte × Bool} {post post' : Byte → Cpu → Cpu}
    (h : ∀ v c, op v c = ((op' v c.p).1, { c with p := withC (op' v c.p).2 c.p })) (h' : ∀ v c, post v c = post' v c)
    {l : List Form}
    (hl : ∀ form ∈ l, form.mode ≠ .accumulator → ∀ b c s, (decodeOp form.opcode b c).operand.mode = form.mode ∧
      ∃ m, (decodeOp form.opcode b c).operand = .mem m ∧
        exec (decodeOp form.opcode b c) s = modifyMem form.cycles m op post s) : ModifiesAs l op' post' := by
  intro form hm ha i s hi
  obtain ⟨b, c, rfl⟩ := eq_decodeOp hi
  obtain ⟨h1, m, ho, he⟩ := hl form hm ha b c s
  exact ⟨h1, m, ho, he.trans (modifyMem_spec h h' _ m s)⟩

/-- The instructions that act on the registers alone. -/
theorem actsAs_of {f g : Cpu → Cpu} (h : ∀ c, f c = g c) {l : List Form}
    (hl : ∀ form ∈ l, ∀ b c s, (decodeOp form.opcode b c).operand.mode = form.mode ∧
      exec (decodeOp form.opcode b c) s = implied form.cycles f s) : ActsAs l g := by
  intro form hm i s hi
  obtain ⟨b, c, rfl⟩ := eq_decodeOp hi
  obtain ⟨h1, he⟩ := hl form hm b c s
  refine ⟨h1, he.trans ?_⟩
  simp only [implied, State.mapCpu, State.charge, h]

end Sys2Proof.Machine
end

