-- ==== Sys2Proof/Laws/Step.lean ====
section
/-! SUPPORT. Everything a step can do, said once; and the induction for a property that each of its parts keeps. -/

namespace Sys2Proof.Machine

/-- The machine a step acts on: the host's turn has been taken and applied. -/
def State.afterHost (s : State) : State := applyHost s.takeTurn.1 s.takeTurn.2

/-- What can stand at a step's instruction boundary: a reset, an interrupt entry or an instruction (rule R482). -/
def Acted (s u : State) : Prop :=
  u = resetSequence s ∨ poll s = some u ∨
    (poll s = none ∧ exec (fetchInstr s).1 (fetchInstr s).2 = .next u)

/-- A step that answers a next state: the host does not stop, one action is performed, and its cost is drained. -/
theorem step_next {s t : State} (h : step s = .next t) :
    s.takeTurn.1.stop = false ∧ ∃ u, Acted s.afterHost u ∧ t = settle s.afterHost.cyc u := by
  unfold step turn at h
  dsimp only at h
  split at h
  · cases h
  · rename_i hs
    refine ⟨by simpa using hs, ?_⟩
    change act s.takeTurn.1.reset s.afterHost = _ at h
    unfold act at h
    split at h
    · cases h
      exact ⟨_, .inl rfl, rfl⟩
    · split at h
      · rename_i u hu
        cases h
        exact ⟨u, .inr (.inl hu), rfl⟩
      · rename_i hu
        unfold stepInstr at h
        dsimp only at h
        split at h
        · rename_i u he
          cases h
          exact ⟨u, .inr (.inr ⟨hu, he⟩), rfl⟩
        · cases h
        · cases h

/-- A step answers a next state unless the host stops, or an unstable opcode runs under the policy `refuse`. -/
theorem step_progress (s : State) (hs : s.takeTurn.1.stop = false) (hp : s.params.unstablePolicy = .nop) :
    ∃ t, step s = .next t := by
  unfold step turn
  dsimp only
  rw [if_neg (by simp [hs])]
  change ∃ t, act s.takeTurn.1.reset s.afterHost = _
  unfold act
  split
  · exact ⟨_, rfl⟩
  · split
    · exact ⟨_, rfl⟩
    · unfold stepInstr
      dsimp only
      have hparams : (fetchInstr s.afterHost).2.params = s.params := by
        have H : StepClosed (fun t => t.params = s.params) :=
          ⟨fun a t h => (busRead_params a t).trans h, fun a v t h => (busWrite_params a v t).trans h,
            fun _ _ _ h => h, fun _ _ h => h⟩
        refine H.fetchInstr _ ?_
        unfold State.afterHost applyHost State.takeTurn
        split <;> rfl
      rcases exec_next_or_unstable (fetchInstr s.afterHost).1 (fetchInstr s.afterHost).2 with ⟨t, h⟩ | ⟨k, _, h⟩
      · rw [h]
        exact ⟨_, rfl⟩
      · rw [hparams, hp] at h
        cases h

/-- What the acknowledgement, the host and reset do besides bus accesses and register operations. -/
structure TurnClosed (P : State → Prop) : Prop extends StepClosed P where
  ack : ∀ s, P s → P { s with nmiPending := false }
  host : ∀ s, P s → P s.afterHost
  ppuReset : ∀ s, P s → P { s with ppu := s.ppu.afterReset }

theorem TurnClosed.acted {P : State → Prop} (H : TurnClosed P) {s u : State} (ha : Acted s u) (h : P s) : P u := by
  rcases ha with rfl | ha | ⟨_, ha⟩
  · unfold resetSequence
    exact H.charge 7 _ (H.ppuReset _ (H.ack _ (H.toStepClosed.loadPc _ _
      (H.cpu (fun c => Cpu.put .I true { c with sp := c.sp - 3#8 }) s
        (fun _ => statusOk_putFlag (by decide) (by decide) true) h))))
  · unfold poll at ha
    split at ha
    · cases ha
      exact H.charge 7 _ (H.toStepClosed.takeException _ _ _ _ (H.ack s h))
    · split at ha
      · cases ha
        exact H.charge 7 _ (H.toStepClosed.takeException _ _ _ _ h)
      · cases ha
  · exact H.toStepClosed.exec ha (H.toStepClosed.fetchInstr s h)

/-- A property that each part of a turn and each tick keeps is kept by a step. -/
theorem TurnClosed.step {P : State → Prop} (H : TurnClosed P) (htick : ∀ s, P s → P s.tick) {s t : State}
    (h : Machine.step s = .next t) (hP : P s) : P t := by
  obtain ⟨_, u, hu, rfl⟩ := step_next h
  exact State.ticks_induction P htick _ u (H.acted hu (H.host s hP))

end Sys2Proof.Machine
end

