-- ==== Sys2Proof/Tests/Slice0.lean ====
section
/-! SUPPORT. The model's own tests: every opcode's word written out from rule R105; an ill-formed term for every check of
WellFormed.lean; vectors of spec/95_test_vectors.md, one step each; the device examples of the same file; and, for every
obligation with hypotheses, a state and operands that meet them. -/

namespace Sys2Proof.Tests

open Sys2Proof.Machine

/-! ### Helpers -/

/-- A small machine: NROM with 32KB of PRG ROM that holds the given bytes at PC and the vectors $9000, $8000 and $9100
(NMI, reset, IRQ), the given registers, and the given RAM cells. -/
def machine (bytes : List Byte) (c : Cpu) (ram : List (Nat × Byte)) : State :=
  { State.reset with
    cpu := c
    ram := Memory.ofCells 2048 ram
    cart := { Cart.empty with
      prgUnits := 2
      prg := Memory.ofCells 32768 ((bytes.zipIdx.map fun b => (c.pc.toNat - 0x8000 + b.2, b.1)) ++
        [(0x7FFB, 0x90#8), (0x7FFD, 0x80#8), (0x7FFF, 0x91#8)]) } }

/-- The registers of the vectors of spec/95: A, X, Y, SP, P, PC. -/
def regs (a x y sp p : Byte) (pc : Addr) : Cpu := ⟨a, x, y, sp, p, pc⟩

/-- The registers, the cost and some RAM cells after one step of a machine whose `cyc` was 7. -/
def after (cells : List Nat) (s : State) : Option (Cpu × Nat × List Byte) :=
  match step s with
  | .next t => some (t.cpu, t.cyc - 7, cells.map t.ram.read)
  | _ => none

/-- What one step leaves in the registers and on the bus. -/
def afterBus (s : State) : Option (Cpu × Byte) :=
  match step s with
  | .next t => some (t.cpu, t.busLast)
  | _ => none

/-- A plain machine at power-on. -/
def plain : State := machine [] (regs 0 0 0 0xFD 0x24 0x8000) []

/-- A sequence of bus writes. -/
def writes (l : List (Addr × Byte)) (s : State) : State := l.foldl (fun t w => busWrite w.1 w.2 t) s

/-- The bytes that `n` reads of one address return. -/
def readN : Nat → Addr → State → List Byte
  | 0, _, _ => []
  | n + 1, a, s => (busRead a s).1 :: readN n a (busRead a s).2


/-! ### Decoding: the opcode map of rule R105, the operand low byte first (rule R101) -/

theorem test_decode_row_0 :
    decode [0x00#8] = .ok (.brk, []) ∧
    decode [0x01#8, 0x34#8] = .ok (.oraIndX 0x34#8, []) ∧
    decode [0x02#8] = .ok (.jam02, []) ∧
    decode [0x03#8, 0x34#8] = .ok (.sloIndX 0x34#8, []) ∧
    decode [0x04#8, 0x34#8] = .ok (.nopZp04 0x34#8, []) ∧
    decode [0x05#8, 0x34#8] = .ok (.oraZp 0x34#8, []) ∧
    decode [0x06#8, 0x34#8] = .ok (.aslZp 0x34#8, []) ∧
    decode [0x07#8, 0x34#8] = .ok (.sloZp 0x34#8, []) ∧
    decode [0x08#8] = .ok (.php, []) ∧
    decode [0x09#8, 0x34#8] = .ok (.oraImm 0x34#8, []) ∧
    decode [0x0A#8] = .ok (.aslA, []) ∧
    decode [0x0B#8, 0x34#8] = .ok (.ancImm0B 0x34#8, []) ∧
    decode [0x0C#8, 0x34#8, 0x12#8] = .ok (.nopAbs 0x1234#16, []) ∧
    decode [0x0D#8, 0x34#8, 0x12#8] = .ok (.oraAbs 0x1234#16, []) ∧
    decode [0x0E#8, 0x34#8, 0x12#8] = .ok (.aslAbs 0x1234#16, []) ∧
    decode [0x0F#8, 0x34#8, 0x12#8] = .ok (.sloAbs 0x1234#16, []) := by
  refine ⟨?_, ?_, ?_, ?_, ?_, ?_, ?_, ?_, ?_, ?_, ?_, ?_, ?_, ?_, ?_, ?_⟩ <;> rfl

theorem test_decode_row_1 :
    decode [0x10#8, 0x34#8] = .ok (.bpl 0x34#8, []) ∧
    decode [0x11#8, 0x34#8] = .ok (.oraIndY 0x34#8, []) ∧
    decode [0x12#8] = .ok (.jam12, []) ∧
    decode [0x13#8, 0x34#8] = .ok (.sloIndY 0x34#8, []) ∧
    decode [0x14#8, 0x34#8] = .ok (.nopZpX14 0x34#8, []) ∧
    decode [0x15#8, 0x34#8] = .ok (.oraZpX 0x34#8, []) ∧
    decode [0x16#8, 0x34#8] = .ok (.aslZpX 0x34#8, []) ∧
    decode [0x17#8, 0x34#8] = .ok (.sloZpX 0x34#8, []) ∧
    decode [0x18#8] = .ok (.clc, []) ∧
    decode [0x19#8, 0x34#8, 0x12#8] = .ok (.oraAbsY 0x1234#16, []) ∧
    decode [0x1A#8] = .ok (.nop1A, []) ∧
    decode [0x1B#8, 0x34#8, 0x12#8] = .ok (.sloAbsY 0x1234#16, []) ∧
    decode [0x1C#8, 0x34#8, 0x12#8] = .ok (.nopAbsX1C 0x1234#16, []) ∧
    decode [0x1D#8, 0x34#8, 0x12#8] = .ok (.oraAbsX 0x1234#16, []) ∧
    decode [0x1E#8, 0x34#8, 0x12#8] = .ok (.aslAbsX 0x1234#16, []) ∧
    decode [0x1F#8, 0x34#8, 0x12#8] = .ok (.sloAbsX 0x1234#16, []) := by
  refine ⟨?_, ?_, ?_, ?_, ?_, ?_, ?_, ?_, ?_, ?_, ?_, ?_, ?_, ?_, ?_, ?_⟩ <;> rfl

theorem test_decode_row_2 :
    decode [0x20#8, 0x34#8, 0x12#8] = .ok (.jsrAbs 0x1234#16, []) ∧
    decode [0x21#8, 0x34#8] = .ok (.andIndX 0x34#8, []) ∧
    decode [0x22#8] = .ok (.jam22, []) ∧
    decode [0x23#8, 0x34#8] = .ok (.rlaIndX 0x34#8, []) ∧
    decode [0x24#8, 0x34#8] = .ok (.bitZp 0x34#8, []) ∧
    decode [0x25#8, 0x34#8] = .ok (.andZp 0x34#8, []) ∧
    decode [0x26#8, 0x34#8] = .ok (.rolZp 0x34#8, []) ∧
    decode [0x27#8, 0x34#8] = .ok (.rlaZp 0x34#8, []) ∧
    decode [0x28#8] = .ok (.plp, []) ∧
    decode [0x29#8, 0x34#8] = .ok (.andImm 0x34#8, []) ∧
    decode [0x2A#8] = .ok (.rolA, []) ∧
    decode [0x2B#8, 0x34#8] = .ok (.ancImm2B 0x34#8, []) ∧
    decode [0x2C#8, 0x34#8, 0x12#8] = .ok (.bitAbs 0x1234#16, []) ∧
    decode [0x2D#8, 0x34#8, 0x12#8] = .ok (.andAbs 0x1234#16, []) ∧
    decode [0x2E#8, 0x34#8, 0x12#8] = .ok (.rolAbs 0x1234#16, []) ∧
    decode [0x2F#8, 0x34#8, 0x12#8] = .ok (.rlaAbs 0x1234#16, []) := by
  refine ⟨?_, ?_, ?_, ?_, ?_, ?_, ?_, ?_, ?_, ?_, ?_, ?_, ?_, ?_, ?_, ?_⟩ <;> rfl

theorem test_decode_row_3 :
    decode [0x30#8, 0x34#8] = .ok (.bmi 0x34#8, []) ∧
    decode [0x31#8, 0x34#8] = .ok (.andIndY 0x34#8, []) ∧
    decode [0x32#8] = .ok (.jam32, []) ∧
    decode [0x33#8, 0x34#8] = .ok (.rlaIndY 0x34#8, []) ∧
    decode [0x34#8, 0x34#8] = .ok (.nopZpX34 0x34#8, []) ∧
    decode [0x35#8, 0x34#8] = .ok (.andZpX 0x34#8, []) ∧
    decode [0x36#8, 0x34#8] = .ok (.rolZpX 0x34#8, []) ∧
    decode [0x37#8, 0x34#8] = .ok (.rlaZpX 0x34#8, []) ∧
    decode [0x38#8] = .ok (.sec, []) ∧
    decode [0x39#8, 0x34#8, 0x12#8] = .ok (.andAbsY 0x1234#16, []) ∧
    decode [0x3A#8] = .ok (.nop3A, []) ∧
    decode [0x3B#8, 0x34#8, 0x12#8] = .ok (.rlaAbsY 0x1234#16, []) ∧
    decode [0x3C#8, 0x34#8, 0x12#8] = .ok (.nopAbsX3C 0x1234#16, []) ∧
    decode [0x3D#8, 0x34#8, 0x12#8] = .ok (.andAbsX 0x1234#16, []) ∧
    decode [0x3E#8, 0x34#8, 0x12#8] = .ok (.rolAbsX 0x1234#16, []) ∧
    decode [0x3F#8, 0x34#8, 0x12#8] = .ok (.rlaAbsX 0x1234#16, []) := by
  refine ⟨?_, ?_, ?_, ?_, ?_, ?_, ?_, ?_, ?_, ?_, ?_, ?_, ?_, ?_, ?_, ?_⟩ <;> rfl

theorem test_decode_row_4 :
    decode [0x40#8] = .ok (.rti, []) ∧
    decode [0x41#8, 0x34#8] = .ok (.eorIndX 0x34#8, []) ∧
    decode [0x42#8] = .ok (.jam42, []) ∧
    decode [0x43#8, 0x34#8] = .ok (.sreIndX 0x34#8, []) ∧
    decode [0x44#8, 0x34#8] = .ok (.nopZp44 0x34#8, []) ∧
    decode [0x45#8, 0x34#8] = .ok (.eorZp 0x34#8, []) ∧
    decode [0x46#8, 0x34#8] = .ok (.lsrZp 0x34#8, []) ∧
    decode [0x47#8, 0x34#8] = .ok (.sreZp 0x34#8, []) ∧
    decode [0x48#8] = .ok (.pha, []) ∧
    decode [0x49#8, 0x34#8] = .ok (.eorImm 0x34#8, []) ∧
    decode [0x4A#8] = .ok (.lsrA, []) ∧
    decode [0x4B#8, 0x34#8] = .ok (.alrImm 0x34#8, []) ∧
    decode [0x4C#8, 0x34#8, 0x12#8] = .ok (.jmpAbs 0x1234#16, []) ∧
    decode [0x4D#8, 0x34#8, 0x12#8] = .ok (.eorAbs 0x1234#16, []) ∧
    decode [0x4E#8, 0x34#8, 0x12#8] = .ok (.lsrAbs 0x1234#16, []) ∧
    decode [0x4F#8, 0x34#8, 0x12#8] = .ok (.sreAbs 0x1234#16, []) := by
  refine ⟨?_, ?_, ?_, ?_, ?_, ?_, ?_, ?_, ?_, ?_, ?_, ?_, ?_, ?_, ?_, ?_⟩ <;> rfl

theorem test_decode_row_5 :
    decode [0x50#8, 0x34#8] = .ok (.bvc 0x34#8, []) ∧
    decode [0x51#8, 0x34#8] = .ok (.eorIndY 0x34#8, []) ∧
    decode [0x52#8] = .ok (.jam52, []) ∧
    decode [0x53#8, 0x34#8] = .ok (.sreIndY 0x34#8, []) ∧
    decode [0x54#8, 0x34#8] = .ok (.nopZpX54 0x34#8, []) ∧
    decode [0x55#8, 0x34#8] = .ok (.eorZpX 0x34#8, []) ∧
    decode [0x56#8, 0x34#8] = .ok (.lsrZpX 0x34#8, []) ∧
    decode [0x57#8, 0x34#8] = .ok (.sreZpX 0x34#8, []) ∧
    decode [0x58#8] = .ok (.cli, []) ∧
    decode [0x59#8, 0x34#8, 0x12#8] = .ok (.eorAbsY 0x1234#16, []) ∧
    decode [0x5A#8] = .ok (.nop5A, []) ∧
    decode [0x5B#8, 0x34#8, 0x12#8] = .ok (.sreAbsY 0x1234#16, []) ∧
    decode [0x5C#8, 0x34#8, 0x12#8] = .ok (.nopAbsX5C 0x1234#16, []) ∧
    decode [0x5D#8, 0x34#8, 0x12#8] = .ok (.eorAbsX 0x1234#16, []) ∧
    decode [0x5E#8, 0x34#8, 0x12#8] = .ok (.lsrAbsX 0x1234#16, []) ∧
    decode [0x5F#8, 0x34#8, 0x12#8] = .ok (.sreAbsX 0x1234#16, []) := by
  refine ⟨?_, ?_, ?_, ?_, ?_, ?_, ?_, ?_, ?_, ?_, ?_, ?_, ?_, ?_, ?_, ?_⟩ <;> rfl

theorem test_decode_row_6 :
    decode [0x60#8] = .ok (.rts, []) ∧
    decode [0x61#8, 0x34#8] = .ok (.adcIndX 0x34#8, []) ∧
    decode [0x62#8] = .ok (.jam62, []) ∧
    decode [0x63#8, 0x34#8] = .ok (.rraIndX 0x34#8, []) ∧
    decode [0x64#8, 0x34#8] = .ok (.nopZp64 0x34#8, []) ∧
    decode [0x65#8, 0x34#8] = .ok (.adcZp 0x34#8, []) ∧
    decode [0x66#8, 0x34#8] = .ok (.rorZp 0x34#8, []) ∧
    decode [0x67#8, 0x34#8] = .ok (.rraZp 0x34#8, []) ∧
    decode [0x68#8] = .ok (.pla, []) ∧
    decode [0x69#8, 0x34#8] = .ok (.adcImm 0x34#8, []) ∧
    decode [0x6A#8] = .ok (.rorA, []) ∧
    decode [0x6B#8, 0x34#8] = .ok (.arrImm 0x34#8, []) ∧
    decode [0x6C#8, 0x34#8, 0x12#8] = .ok (.jmpInd 0x1234#16, []) ∧
    decode [0x6D#8, 0x34#8, 0x12#8] = .ok (.adcAbs 0x1234#16, []) ∧
    decode [0x6E#8, 0x34#8, 0x12#8] = .ok (.rorAbs 0x1234#16, []) ∧
    decode [0x6F#8, 0x34#8, 0x12#8] = .ok (.rraAbs 0x1234#16, []) := by
  refine ⟨?_, ?_, ?_, ?_, ?_, ?_, ?_, ?_, ?_, ?_, ?_, ?_, ?_, ?_, ?_, ?_⟩ <;> rfl

theorem test_decode_row_7 :
    decode [0x70#8, 0x34#8] = .ok (.bvs 0x34#8, []) ∧
    decode [0x71#8, 0x34#8] = .ok (.adcIndY 0x34#8, []) ∧
    decode [0x72#8] = .ok (.jam72, []) ∧
    decode [0x73#8, 0x34#8] = .ok (.rraIndY 0x34#8, []) ∧
    decode [0x74#8, 0x34#8] = .ok (.nopZpX74 0x34#8, []) ∧
    decode [0x75#8, 0x34#8] = .ok (.adcZpX 0x34#8, []) ∧
    decode [0x76#8, 0x34#8] = .ok (.rorZpX 0x34#8, []) ∧
    decode [0x77#8, 0x34#8] = .ok (.rraZpX 0x34#8, []) ∧
    decode [0x78#8] = .ok (.sei, []) ∧
    decode [0x79#8, 0x34#8, 0x12#8] = .ok (.adcAbsY 0x1234#16, []) ∧
    decode [0x7A#8] = .ok (.nop7A, []) ∧
    decode [0x7B#8, 0x34#8, 0x12#8] = .ok (.rraAbsY 0x1234#16, []) ∧
    decode [0x7C#8, 0x34#8, 0x12#8] = .ok (.nopAbsX7C 0x1234#16, []) ∧
    decode [0x7D#8, 0x34#8, 0x12#8] = .ok (.adcAbsX 0x1234#16, []) ∧
    decode [0x7E#8, 0x34#8, 0x12#8] = .ok (.rorAbsX 0x1234#16, []) ∧
    decode [0x7F#8, 0x34#8, 0x12#8] = .ok (.rraAbsX 0x1234#16, []) := by
  refine ⟨?_, ?_, ?_, ?_, ?_, ?_, ?_, ?_, ?_, ?_, ?_, ?_, ?_, ?_, ?_, ?_⟩ <;> rfl

theorem test_decode_row_8 :
    decode [0x80#8, 0x34#8] = .ok (.nopImm80 0x34#8, []) ∧
    decode [0x81#8, 0x34#8] = .ok (.staIndX 0x34#8, []) ∧
    decode [0x82#8, 0x34#8] = .ok (.nopImm82 0x34#8, []) ∧
    decode [0x83#8, 0x34#8] = .ok (.saxIndX 0x34#8, []) ∧
    decode [0x84#8, 0x34#8] = .ok (.styZp 0x34#8, []) ∧
    decode [0x85#8, 0x34#8] = .ok (.staZp 0x34#8, []) ∧
    decode [0x86#8, 0x34#8] = .ok (.stxZp 0x34#8, []) ∧
    decode [0x87#8, 0x34#8] = .ok (.saxZp 0x34#8, []) ∧
    decode [0x88#8] = .ok (.dey, []) ∧
    decode [0x89#8, 0x34#8] = .ok (.nopImm89 0x34#8, []) ∧
    decode [0x8A#8] = .ok (.txa, []) ∧
    decode [0x8B#8, 0x34#8] = .ok (.xaaImm 0x34#8, []) ∧
    decode [0x8C#8, 0x34#8, 0x12#8] = .ok (.styAbs 0x1234#16, []) ∧
    decode [0x8D#8, 0x34#8, 0x12#8] = .ok (.staAbs 0x1234#16, []) ∧
    decode [0x8E#8, 0x34#8, 0x12#8] = .ok (.stxAbs 0x1234#16, []) ∧
    decode [0x8F#8, 0x34#8, 0x12#8] = .ok (.saxAbs 0x1234#16, []) := by
  refine ⟨?_, ?_, ?_, ?_, ?_, ?_, ?_, ?_, ?_, ?_, ?_, ?_, ?_, ?_, ?_, ?_⟩ <;> rfl

theorem test_decode_row_9 :
    decode [0x90#8, 0x34#8] = .ok (.bcc 0x34#8, []) ∧
    decode [0x91#8, 0x34#8] = .ok (.staIndY 0x34#8, []) ∧
    decode [0x92#8] = .ok (.jam92, []) ∧
    decode [0x93#8, 0x34#8] = .ok (.shaIndY 0x34#8, []) ∧
    decode [0x94#8, 0x34#8] = .ok (.styZpX 0x34#8, []) ∧
    decode [0x95#8, 0x34#8] = .ok (.staZpX 0x34#8, []) ∧
    decode [0x96#8, 0x34#8] = .ok (.stxZpY 0x34#8, []) ∧
    decode [0x97#8, 0x34#8] = .ok (.saxZpY 0x34#8, []) ∧
    decode [0x98#8] = .ok (.tya, []) ∧
    decode [0x99#8, 0x34#8, 0x12#8] = .ok (.staAbsY 0x1234#16, []) ∧
    decode [0x9A#8] = .ok (.txs, []) ∧
    decode [0x9B#8, 0x34#8, 0x12#8] = .ok (.tasAbsY 0x1234#16, []) ∧
    decode [0x9C#8, 0x34#8, 0x12#8] = .ok (.shyAbsX 0x1234#16, []) ∧
    decode [0x9D#8, 0x34#8, 0x12#8] = .ok (.staAbsX 0x1234#16, []) ∧
    decode [0x9E#8, 0x34#8, 0x12#8] = .ok (.shxAbsY 0x1234#16, []) ∧
    decode [0x9F#8, 0x34#8, 0x12#8] = .ok (.shaAbsY 0x1234#16, []) := by
  refine ⟨?_, ?_, ?_, ?_, ?_, ?_, ?_, ?_, ?_, ?_, ?_, ?_, ?_, ?_, ?_, ?_⟩ <;> rfl

theorem test_decode_row_A :
    decode [0xA0#8, 0x34#8] = .ok (.ldyImm 0x34#8, []) ∧
    decode [0xA1#8, 0x34#8] = .ok (.ldaIndX 0x34#8, []) ∧
    decode [0xA2#8, 0x34#8] = .ok (.ldxImm 0x34#8, []) ∧
    decode [0xA3#8, 0x34#8] = .ok (.laxIndX 0x34#8, []) ∧
    decode [0xA4#8, 0x34#8] = .ok (.ldyZp 0x34#8, []) ∧
    decode [0xA5#8, 0x34#8] = .ok (.ldaZp 0x34#8, []) ∧
    decode [0xA6#8, 0x34#8] = .ok (.ldxZp 0x34#8, []) ∧
    decode [0xA7#8, 0x34#8] = .ok (.laxZp 0x34#8, []) ∧
    decode [0xA8#8] = .ok (.tay, []) ∧
    decode [0xA9#8, 0x34#8] = .ok (.ldaImm 0x34#8, []) ∧
    decode [0xAA#8] = .ok (.tax, []) ∧
    decode [0xAB#8, 0x34#8] = .ok (.lxaImm 0x34#8, []) ∧
    decode [0xAC#8, 0x34#8, 0x12#8] = .ok (.ldyAbs 0x1234#16, []) ∧
    decode [0xAD#8, 0x34#8, 0x12#8] = .ok (.ldaAbs 0x1234#16, []) ∧
    decode [0xAE#8, 0x34#8, 0x12#8] = .ok (.ldxAbs 0x1234#16, []) ∧
    decode [0xAF#8, 0x34#8, 0x12#8] = .ok (.laxAbs 0x1234#16, []) := by
  refine ⟨?_, ?_, ?_, ?_, ?_, ?_, ?_, ?_, ?_, ?_, ?_, ?_, ?_, ?_, ?_, ?_⟩ <;> rfl

theorem test_decode_row_B :
    decode [0xB0#8, 0x34#8] = .ok (.bcs 0x34#8, []) ∧
    decode [0xB1#8, 0x34#8] = .ok (.ldaIndY 0x34#8, []) ∧
    decode [0xB2#8] = .ok (.jamB2, []) ∧
    decode [0xB3#8, 0x34#8] = .ok (.laxIndY 0x34#8, []) ∧
    decode [0xB4#8, 0x34#8] = .ok (.ldyZpX 0x34#8, []) ∧
    decode [0xB5#8, 0x34#8] = .ok (.ldaZpX 0x34#8, []) ∧
    decode [0xB6#8, 0x34#8] = .ok (.ldxZpY 0x34#8, []) ∧
    decode [0xB7#8, 0x34#8] = .ok (.laxZpY 0x34#8, []) ∧
    decode [0xB8#8] = .ok (.clv, []) ∧
    decode [0xB9#8, 0x34#8, 0x12#8] = .ok (.ldaAbsY 0x1234#16, []) ∧
    decode [0xBA#8] = .ok (.tsx, []) ∧
    decode [0xBB#8, 0x34#8, 0x12#8] = .ok (.lasAbsY 0x1234#16, []) ∧
    decode [0xBC#8, 0x34#8, 0x12#8] = .ok (.ldyAbsX 0x1234#16, []) ∧
    decode [0xBD#8, 0x34#8, 0x12#8] = .ok (.ldaAbsX 0x1234#16, []) ∧
    decode [0xBE#8, 0x34#8, 0x12#8] = .ok (.ldxAbsY 0x1234#16, []) ∧
    decode [0xBF#8, 0x34#8, 0x12#8] = .ok (.laxAbsY 0x1234#16, []) := by
  refine ⟨?_, ?_, ?_, ?_, ?_, ?_, ?_, ?_, ?_, ?_, ?_, ?_, ?_, ?_, ?_, ?_⟩ <;> rfl

theorem test_decode_row_C :
    decode [0xC0#8, 0x34#8] = .ok (.cpyImm 0x34#8, []) ∧
    decode [0xC1#8, 0x34#8] = .ok (.cmpIndX 0x34#8, []) ∧
    decode [0xC2#8, 0x34#8] = .ok (.nopImmC2 0x34#8, []) ∧
    decode [0xC3#8, 0x34#8] = .ok (.dcpIndX 0x34#8, []) ∧
    decode [0xC4#8, 0x34#8] = .ok (.cpyZp 0x34#8, []) ∧
    decode [0xC5#8, 0x34#8] = .ok (.cmpZp 0x34#8, []) ∧
    decode [0xC6#8, 0x34#8] = .ok (.decZp 0x34#8, []) ∧
    decode [0xC7#8, 0x34#8] = .ok (.dcpZp 0x34#8, []) ∧
    decode [0xC8#8] = .ok (.iny, []) ∧
    decode [0xC9#8, 0x34#8] = .ok (.cmpImm 0x34#8, []) ∧
    decode [0xCA#8] = .ok (.dex, []) ∧
    decode [0xCB#8, 0x34#8] = .ok (.axsImm 0x34#8, []) ∧
    decode [0xCC#8, 0x34#8, 0x12#8] = .ok (.cpyAbs 0x1234#16, []) ∧
    decode [0xCD#8, 0x34#8, 0x12#8] = .ok (.cmpAbs 0x1234#16, []) ∧
    decode [0xCE#8, 0x34#8, 0x12#8] = .ok (.decAbs 0x1234#16, []) ∧
    decode [0xCF#8, 0x34#8, 0x12#8] = .ok (.dcpAbs 0x1234#16, []) := by
  refine ⟨?_, ?_, ?_, ?_, ?_, ?_, ?_, ?_, ?_, ?_, ?_, ?_, ?_, ?_, ?_, ?_⟩ <;> rfl

theorem test_decode_row_D :
    decode [0xD0#8, 0x34#8] = .ok (.bne 0x34#8, []) ∧
    decode [0xD1#8, 0x34#8] = .ok (.cmpIndY 0x34#8, []) ∧
    decode [0xD2#8] = .ok (.jamD2, []) ∧
    decode [0xD3#8, 0x34#8] = .ok (.dcpIndY 0x34#8, []) ∧
    decode [0xD4#8, 0x34#8] = .ok (.nopZpXD4 0x34#8, []) ∧
    decode [0xD5#8, 0x34#8] = .ok (.cmpZpX 0x34#8, []) ∧
    decode [0xD6#8, 0x34#8] = .ok (.decZpX 0x34#8, []) ∧
    decode [0xD7#8, 0x34#8] = .ok (.dcpZpX 0x34#8, []) ∧
    decode [0xD8#8] = .ok (.cld, []) ∧
    decode [0xD9#8, 0x34#8, 0x12#8] = .ok (.cmpAbsY 0x1234#16, []) ∧
    decode [0xDA#8] = .ok (.nopDA, []) ∧
    decode [0xDB#8, 0x34#8, 0x12#8] = .ok (.dcpAbsY 0x1234#16, []) ∧
    decode [0xDC#8, 0x34#8, 0x12#8] = .ok (.nopAbsXDC 0x1234#16, []) ∧
    decode [0xDD#8, 0x34#8, 0x12#8] = .ok (.cmpAbsX 0x1234#16, []) ∧
    decode [0xDE#8, 0x34#8, 0x12#8] = .ok (.decAbsX 0x1234#16, []) ∧
    decode [0xDF#8, 0x34#8, 0x12#8] = .ok (.dcpAbsX 0x1234#16, []) := by
  refine ⟨?_, ?_, ?_, ?_, ?_, ?_, ?_, ?_, ?_, ?_, ?_, ?_, ?_, ?_, ?_, ?_⟩ <;> rfl

theorem test_decode_row_E :
    decode [0xE0#8, 0x34#8] = .ok (.cpxImm 0x34#8, []) ∧
    decode [0xE1#8, 0x34#8] = .ok (.sbcIndX 0x34#8, []) ∧
    decode [0xE2#8, 0x34#8] = .ok (.nopImmE2 0x34#8, []) ∧
    decode [0xE3#8, 0x34#8] = .ok (.iscIndX 0x34#8, []) ∧
    decode [0xE4#8, 0x34#8] = .ok (.cpxZp 0x34#8, []) ∧
    decode [0xE5#8, 0x34#8] = .ok (.sbcZp 0x34#8, []) ∧
    decode [0xE6#8, 0x34#8] = .ok (.incZp 0x34#8, []) ∧
    decode [0xE7#8, 0x34#8] = .ok (.iscZp 0x34#8, []) ∧
    decode [0xE8#8] = .ok (.inx, []) ∧
    decode [0xE9#8, 0x34#8] = .ok (.sbcImm 0x34#8, []) ∧
    decode [0xEA#8] = .ok (.nop, []) ∧
    decode [0xEB#8, 0x34#8] = .ok (.sbcImmEB 0x34#8, []) ∧
    decode [0xEC#8, 0x34#8, 0x12#8] = .ok (.cpxAbs 0x1234#16, []) ∧
    decode [0xED#8, 0x34#8, 0x12#8] = .ok (.sbcAbs 0x1234#16, []) ∧
    decode [0xEE#8, 0x34#8, 0x12#8] = .ok (.incAbs 0x1234#16, []) ∧
    decode [0xEF#8, 0x34#8, 0x12#8] = .ok (.iscAbs 0x1234#16, []) := by
  refine ⟨?_, ?_, ?_, ?_, ?_, ?_, ?_, ?_, ?_, ?_, ?_, ?_, ?_, ?_, ?_, ?_⟩ <;> rfl

theorem test_decode_row_F :
    decode [0xF0#8, 0x34#8] = .ok (.beq 0x34#8, []) ∧
    decode [0xF1#8, 0x34#8] = .ok (.sbcIndY 0x34#8, []) ∧
    decode [0xF2#8] = .ok (.jamF2, []) ∧
    decode [0xF3#8, 0x34#8] = .ok (.iscIndY 0x34#8, []) ∧
    decode [0xF4#8, 0x34#8] = .ok (.nopZpXF4 0x34#8, []) ∧
    decode [0xF5#8, 0x34#8] = .ok (.sbcZpX 0x34#8, []) ∧
    decode [0xF6#8, 0x34#8] = .ok (.incZpX 0x34#8, []) ∧
    decode [0xF7#8, 0x34#8] = .ok (.iscZpX 0x34#8, []) ∧
    decode [0xF8#8] = .ok (.sed, []) ∧
    decode [0xF9#8, 0x34#8, 0x12#8] = .ok (.sbcAbsY 0x1234#16, []) ∧
    decode [0xFA#8] = .ok (.nopFA, []) ∧
    decode [0xFB#8, 0x34#8, 0x12#8] = .ok (.iscAbsY 0x1234#16, []) ∧
    decode [0xFC#8, 0x34#8, 0x12#8] = .ok (.nopAbsXFC 0x1234#16, []) ∧
    decode [0xFD#8, 0x34#8, 0x12#8] = .ok (.sbcAbsX 0x1234#16, []) ∧
    decode [0xFE#8, 0x34#8, 0x12#8] = .ok (.incAbsX 0x1234#16, []) ∧
    decode [0xFF#8, 0x34#8, 0x12#8] = .ok (.iscAbsX 0x1234#16, []) := by
  refine ⟨?_, ?_, ?_, ?_, ?_, ?_, ?_, ?_, ?_, ?_, ?_, ?_, ?_, ?_, ?_, ?_⟩ <;> rfl

/-! ### WellFormed: an ill-formed term for each check, which the check refuses -/

theorem test_memory_order_refused : Memory.wf 256 [(5, 0x01#8), (4, 0x02#8)] = false := by decide
theorem test_memory_repeat_refused : Memory.wf 256 [(5, 0x01#8), (5, 0x02#8)] = false := by decide
theorem test_memory_blank_entry_refused : Memory.wf 256 [(5, 0x00#8)] = false := by decide
theorem test_memory_bound_refused : Memory.wf 256 [(256, 0x01#8)] = false := by decide
theorem test_memory_accepted : Memory.wf 256 [(0, 0x01#8), (255, 0xFF#8)] = true := by decide

/-- An operand byte is missing (rule R100: the opcode alone gives the length). -/
theorem test_bytes_truncated_refused : wfBytes [0xAD#8, 0x34#8] = false := by decide
theorem test_bytes_empty_refused : wfBytes [] = false := by decide
theorem test_bytes_too_long_refused : wfBytes [0xEA#8, 0xEA#8] = false := by decide
theorem test_bytes_accepted : wfBytes [0xAD#8, 0x34#8, 0x12#8] = true := by decide

/-- An image of the given sizes. -/
def image (mapperId prgLen chrLen : Nat) : CartImage :=
  { mapperId := mapperId, prgLen := prgLen, prg := [], chrLen := chrLen, chr := [], mirroring := .horizontal }

/-- What the construction check answers: 0 accepted, 1 unsupported mapper, 2 malformed (rule R420). -/
def verdict (c : CartImage) : Nat :=
  match c.check with
  | .ok _ => 0
  | .error (.unsupportedMapper _) => 1
  | .error .malformedRom => 2

theorem test_image_mapper_refused : verdict (image 2 16384 0) = 1 := by decide
theorem test_image_empty_prg_refused : verdict (image 0 0 0) = 2 := by decide
theorem test_image_odd_prg_refused : verdict (image 0 16385 0) = 2 := by decide
theorem test_image_prg_count_refused : verdict (image 0 65536 0) = 2 ∧ verdict (image 1 49152 0) = 2 := by decide
theorem test_image_odd_chr_refused : verdict (image 1 16384 8191) = 2 := by decide
theorem test_image_chr_count_refused : verdict (image 0 16384 16384) = 2 ∧ verdict (image 4 16384 24576) = 2 := by
  decide
theorem test_image_beyond_length_refused :
    verdict { image 0 16384 0 with prg := [(16384, 0x01#8)] } = 2 ∧
      verdict { image 0 16384 0 with chr := [(0, 0x01#8)] } = 2 := by decide
theorem test_image_accepted : verdict (image 0 32768 8192) = 0 ∧ verdict (image 1 262144 131072) = 0 ∧
    verdict (image 4 524288 262144) = 0 := by decide

/-- The operand that an instruction's row gives (`Instr.wf`). -/
theorem test_instr_wf : (Instr.ldaIndY 0x10#8).wf = true ∧ (Instr.jmpInd 0x12FF#16).wf = true := by decide


/-! ### Vectors of spec/95_test_vectors.md: bytes, start state, end state and cycles as printed there -/

/-- `A9 00` LDA #$00. -/
theorem test_v_A9_lda : after [] (machine [0xA9#8, 0x00#8] (regs 0x55 0x00 0x00 0xFD 0x24 0x8000) []) =
    some ((regs 0x00 0x00 0x00 0xFD 0x26 0x8002), 2, []) := by decide

/-- `BD F0 02` LDA $02F0,X. -/
theorem test_v_BD_lda : after [] (machine [0xBD#8, 0xF0#8, 0x02#8] (regs 0x00 0x20 0x00 0xFD 0x24 0x8000) [(0x310, 0x11#8)]) =
    some ((regs 0x11 0x20 0x00 0xFD 0x24 0x8003), 5, []) := by decide

/-- `BD F0 02` LDA $02F0,X. -/
theorem test_v_BD_lda_2 : after [] (machine [0xBD#8, 0xF0#8, 0x02#8] (regs 0x00 0x0F 0x00 0xFD 0x24 0x8000) [(0x2FF, 0x12#8)]) =
    some ((regs 0x12 0x0F 0x00 0xFD 0x24 0x8003), 4, []) := by decide

/-- `B1 10` LDA ($10),Y. -/
theorem test_v_B1_lda : after [] (machine [0xB1#8, 0x10#8] (regs 0x00 0x00 0x20 0xFD 0x24 0x8000) [(0x010, 0xF0#8), (0x011, 0x02#8), (0x310, 0x33#8)]) =
    some ((regs 0x33 0x00 0x20 0xFD 0x24 0x8002), 6, []) := by decide

/-- `B1 FF` LDA ($FF),Y. -/
theorem test_v_B1_lda_2 : after [] (machine [0xB1#8, 0xFF#8] (regs 0x00 0x00 0x01 0xFD 0x24 0x8000) [(0x0FF, 0x00#8), (0x000, 0x03#8), (0x301, 0x44#8)]) =
    some ((regs 0x44 0x00 0x01 0xFD 0x24 0x8002), 5, []) := by decide

/-- `A1 FE` LDA ($FE,X). -/
theorem test_v_A1_lda : after [] (machine [0xA1#8, 0xFE#8] (regs 0x00 0x01 0x00 0xFD 0x24 0x8000) [(0x0FF, 0x34#8), (0x000, 0x02#8), (0x234, 0x55#8)]) =
    some ((regs 0x55 0x01 0x00 0xFD 0x24 0x8002), 6, []) := by decide

/-- `B5 F0` LDA $F0,X. -/
theorem test_v_B5_lda : after [] (machine [0xB5#8, 0xF0#8] (regs 0x00 0x20 0x00 0xFD 0x24 0x8000) [(0x010, 0x66#8), (0x110, 0x77#8)]) =
    some ((regs 0x66 0x20 0x00 0xFD 0x24 0x8002), 4, []) := by decide

/-- `B6 FF` LDX $FF,Y. -/
theorem test_v_B6_ldx : after [] (machine [0xB6#8, 0xFF#8] (regs 0x00 0x00 0x02 0xFD 0x24 0x8000) [(0x001, 0x88#8)]) =
    some ((regs 0x00 0x88 0x02 0xFD 0xA4 0x8002), 4, []) := by decide

/-- `BC FF 02` LDY $02FF,X. -/
theorem test_v_BC_ldy : after [] (machine [0xBC#8, 0xFF#8, 0x02#8] (regs 0x00 0x01 0x00 0xFD 0x24 0x8000) [(0x300, 0x01#8)]) =
    some ((regs 0x00 0x01 0x01 0xFD 0x24 0x8003), 5, []) := by decide

/-- `AD 00 08` LDA $0800. -/
theorem test_v_AD_lda : after [] (machine [0xAD#8, 0x00#8, 0x08#8] (regs 0x00 0x00 0x00 0xFD 0x24 0x8000) [(0x000, 0x99#8)]) =
    some ((regs 0x99 0x00 0x00 0xFD 0xA4 0x8003), 4, []) := by decide

/-- `9D F0 02` STA $02F0,X. -/
theorem test_v_9D_sta : after [0x310] (machine [0x9D#8, 0xF0#8, 0x02#8] (regs 0xAB 0x20 0x00 0xFD 0x24 0x8000) []) =
    some ((regs 0xAB 0x20 0x00 0xFD 0x24 0x8003), 5, [0xAB#8]) := by decide

/-- `91 10` STA ($10),Y. -/
theorem test_v_91_sta : after [0x301] (machine [0x91#8, 0x10#8] (regs 0xCD 0x00 0x01 0xFD 0x24 0x8000) [(0x010, 0x00#8), (0x011, 0x03#8)]) =
    some ((regs 0xCD 0x00 0x01 0xFD 0x24 0x8002), 6, [0xCD#8]) := by decide

/-- `8D 00 18` STA $1800. -/
theorem test_v_8D_sta : after [0x000] (machine [0x8D#8, 0x00#8, 0x18#8] (regs 0x5A 0x00 0x00 0xFD 0x24 0x8000) []) =
    some ((regs 0x5A 0x00 0x00 0xFD 0x24 0x8003), 4, [0x5A#8]) := by decide

/-- `96 10` STX $10,Y. -/
theorem test_v_96_stx : after [0x008] (machine [0x96#8, 0x10#8] (regs 0x00 0x77 0xF8 0xFD 0x24 0x8000) []) =
    some ((regs 0x00 0x77 0xF8 0xFD 0x24 0x8002), 4, [0x77#8]) := by decide

/-- `8C 00 80` STY $8000. -/
theorem test_v_8C_sty : after [] (machine [0x8C#8, 0x00#8, 0x80#8] (regs 0x00 0x00 0x01 0xFD 0x24 0x8000) []) =
    some ((regs 0x00 0x00 0x01 0xFD 0x24 0x8003), 4, []) := by decide

/-- `AA` TAX. -/
theorem test_v_AA_tax : after [] (machine [0xAA#8] (regs 0x80 0x00 0x00 0xFD 0x24 0x8000) []) =
    some ((regs 0x80 0x80 0x00 0xFD 0xA4 0x8001), 2, []) := by decide

/-- `98` TYA. -/
theorem test_v_98_tya : after [] (machine [0x98#8] (regs 0x01 0x00 0x00 0xFD 0x24 0x8000) []) =
    some ((regs 0x00 0x00 0x00 0xFD 0x26 0x8001), 2, []) := by decide

/-- `BA` TSX. -/
theorem test_v_BA_tsx : after [] (machine [0xBA#8] (regs 0x00 0x00 0x00 0xFD 0x24 0x8000) []) =
    some ((regs 0x00 0xFD 0x00 0xFD 0xA4 0x8001), 2, []) := by decide

/-- `9A` TXS. -/
theorem test_v_9A_txs : after [] (machine [0x9A#8] (regs 0x00 0x00 0x00 0xFD 0x24 0x8000) []) =
    some ((regs 0x00 0x00 0x00 0x00 0x24 0x8001), 2, []) := by decide

/-- `48` PHA. -/
theorem test_v_48_pha : after [0x1FD] (machine [0x48#8] (regs 0x42 0x00 0x00 0xFD 0x24 0x8000) []) =
    some ((regs 0x42 0x00 0x00 0xFC 0x24 0x8001), 3, [0x42#8]) := by decide

/-- `08` PHP. -/
theorem test_v_08_php : after [0x1FD] (machine [0x08#8] (regs 0x00 0x00 0x00 0xFD 0xE5 0x8000) []) =
    some ((regs 0x00 0x00 0x00 0xFC 0xE5 0x8001), 3, [0xF5#8]) := by decide

/-- `68` PLA. -/
theorem test_v_68_pla : after [] (machine [0x68#8] (regs 0x00 0x00 0x00 0xFF 0x24 0x8000) [(0x100, 0x00#8)]) =
    some ((regs 0x00 0x00 0x00 0x00 0x26 0x8001), 4, []) := by decide

/-- `28` PLP. -/
theorem test_v_28_plp : after [] (machine [0x28#8] (regs 0x00 0x00 0x00 0xFC 0x24 0x8000) [(0x1FD, 0xFF#8)]) =
    some ((regs 0x00 0x00 0x00 0xFD 0xEF 0x8001), 4, []) := by decide

/-- `29 0F` AND #$0F. -/
theorem test_v_29_and : after [] (machine [0x29#8, 0x0F#8] (regs 0xF0 0x00 0x00 0xFD 0x24 0x8000) []) =
    some ((regs 0x00 0x00 0x00 0xFD 0x26 0x8002), 2, []) := by decide

/-- `09 80` ORA #$80. -/
theorem test_v_09_ora : after [] (machine [0x09#8, 0x80#8] (regs 0x01 0x00 0x00 0xFD 0x24 0x8000) []) =
    some ((regs 0x81 0x00 0x00 0xFD 0xA4 0x8002), 2, []) := by decide

/-- `49 FF` EOR #$FF. -/
theorem test_v_49_eor : after [] (machine [0x49#8, 0xFF#8] (regs 0xFF 0x00 0x00 0xFD 0x24 0x8000) []) =
    some ((regs 0x00 0x00 0x00 0xFD 0x26 0x8002), 2, []) := by decide

/-- `24 10` BIT $10. -/
theorem test_v_24_bit : after [] (machine [0x24#8, 0x10#8] (regs 0x01 0x00 0x00 0xFD 0x24 0x8000) [(0x010, 0xC0#8)]) =
    some ((regs 0x01 0x00 0x00 0xFD 0xE6 0x8002), 3, []) := by decide

/-- `69 00` ADC #$00. -/
theorem test_v_69_adc : after [] (machine [0x69#8, 0x00#8] (regs 0x7F 0x00 0x00 0xFD 0x25 0x8000) []) =
    some ((regs 0x80 0x00 0x00 0xFD 0xE4 0x8002), 2, []) := by decide

/-- `69 90` ADC #$90. -/
theorem test_v_69_adc_2 : after [] (machine [0x69#8, 0x90#8] (regs 0xD0 0x00 0x00 0xFD 0x24 0x8000) []) =
    some ((regs 0x60 0x00 0x00 0xFD 0x65 0x8002), 2, []) := by decide

/-- `E9 01` SBC #$01. -/
theorem test_v_E9_sbc : after [] (machine [0xE9#8, 0x01#8] (regs 0x00 0x00 0x00 0xFD 0x25 0x8000) []) =
    some ((regs 0xFF 0x00 0x00 0xFD 0xA4 0x8002), 2, []) := by decide

/-- `E9 01` SBC #$01. -/
theorem test_v_E9_sbc_2 : after [] (machine [0xE9#8, 0x01#8] (regs 0x80 0x00 0x00 0xFD 0x25 0x8000) []) =
    some ((regs 0x7F 0x00 0x00 0xFD 0x65 0x8002), 2, []) := by decide

/-- `C9 10` CMP #$10. -/
theorem test_v_C9_cmp : after [] (machine [0xC9#8, 0x10#8] (regs 0x10 0x00 0x00 0xFD 0x24 0x8000) []) =
    some ((regs 0x10 0x00 0x00 0xFD 0x27 0x8002), 2, []) := by decide

/-- `C9 11` CMP #$11. -/
theorem test_v_C9_cmp_2 : after [] (machine [0xC9#8, 0x11#8] (regs 0x10 0x00 0x00 0xFD 0x24 0x8000) []) =
    some ((regs 0x10 0x00 0x00 0xFD 0xA4 0x8002), 2, []) := by decide

/-- `E0 FF` CPX #$FF. -/
theorem test_v_E0_cpx : after [] (machine [0xE0#8, 0xFF#8] (regs 0x00 0x00 0x00 0xFD 0x24 0x8000) []) =
    some ((regs 0x00 0x00 0x00 0xFD 0x24 0x8002), 2, []) := by decide

/-- `C4 10` CPY $10. -/
theorem test_v_C4_cpy : after [] (machine [0xC4#8, 0x10#8] (regs 0x00 0x00 0x7F 0xFD 0x24 0x8000) [(0x010, 0x80#8)]) =
    some ((regs 0x00 0x00 0x7F 0xFD 0xA4 0x8002), 3, []) := by decide

/-- `E6 10` INC $10. -/
theorem test_v_E6_inc : after [0x010] (machine [0xE6#8, 0x10#8] (regs 0x00 0x00 0x00 0xFD 0x24 0x8000) [(0x010, 0xFF#8)]) =
    some ((regs 0x00 0x00 0x00 0xFD 0x26 0x8002), 5, [0x00#8]) := by decide

/-- `C6 10` DEC $10. -/
theorem test_v_C6_dec : after [0x010] (machine [0xC6#8, 0x10#8] (regs 0x00 0x00 0x00 0xFD 0x24 0x8000) [(0x010, 0x00#8)]) =
    some ((regs 0x00 0x00 0x00 0xFD 0xA4 0x8002), 5, [0xFF#8]) := by decide

/-- `FE FF 02` INC $02FF,X. -/
theorem test_v_FE_inc : after [0x300] (machine [0xFE#8, 0xFF#8, 0x02#8] (regs 0x00 0x01 0x00 0xFD 0x24 0x8000) [(0x300, 0x7F#8)]) =
    some ((regs 0x00 0x01 0x00 0xFD 0xA4 0x8003), 7, [0x80#8]) := by decide

/-- `E8` INX. -/
theorem test_v_E8_inx : after [] (machine [0xE8#8] (regs 0x00 0xFF 0x00 0xFD 0x24 0x8000) []) =
    some ((regs 0x00 0x00 0x00 0xFD 0x26 0x8001), 2, []) := by decide

/-- `88` DEY. -/
theorem test_v_88_dey : after [] (machine [0x88#8] (regs 0x00 0x00 0x00 0xFD 0x24 0x8000) []) =
    some ((regs 0x00 0x00 0xFF 0xFD 0xA4 0x8001), 2, []) := by decide

/-- `CA` DEX. -/
theorem test_v_CA_dex : after [] (machine [0xCA#8] (regs 0x00 0x01 0x00 0xFD 0x24 0x8000) []) =
    some ((regs 0x00 0x00 0x00 0xFD 0x26 0x8001), 2, []) := by decide

/-- `C8` INY. -/
theorem test_v_C8_iny : after [] (machine [0xC8#8] (regs 0x00 0x00 0x7F 0xFD 0x24 0x8000) []) =
    some ((regs 0x00 0x00 0x80 0xFD 0xA4 0x8001), 2, []) := by decide

/-- `0A` ASL A. -/
theorem test_v_0A_asl : after [] (machine [0x0A#8] (regs 0x80 0x00 0x00 0xFD 0x24 0x8000) []) =
    some ((regs 0x00 0x00 0x00 0xFD 0x27 0x8001), 2, []) := by decide

/-- `4A` LSR A. -/
theorem test_v_4A_lsr : after [] (machine [0x4A#8] (regs 0x01 0x00 0x00 0xFD 0x24 0x8000) []) =
    some ((regs 0x00 0x00 0x00 0xFD 0x27 0x8001), 2, []) := by decide

/-- `2A` ROL A. -/
theorem test_v_2A_rol : after [] (machine [0x2A#8] (regs 0x80 0x00 0x00 0xFD 0x25 0x8000) []) =
    some ((regs 0x01 0x00 0x00 0xFD 0x25 0x8001), 2, []) := by decide

/-- `6A` ROR A. -/
theorem test_v_6A_ror : after [] (machine [0x6A#8] (regs 0x01 0x00 0x00 0xFD 0x25 0x8000) []) =
    some ((regs 0x80 0x00 0x00 0xFD 0xA5 0x8001), 2, []) := by decide

/-- `06 10` ASL $10. -/
theorem test_v_06_asl : after [0x010] (machine [0x06#8, 0x10#8] (regs 0x00 0x00 0x00 0xFD 0x24 0x8000) [(0x010, 0x41#8)]) =
    some ((regs 0x00 0x00 0x00 0xFD 0xA4 0x8002), 5, [0x82#8]) := by decide

/-- `5E 00 03` LSR $0300,X. -/
theorem test_v_5E_lsr : after [0x305] (machine [0x5E#8, 0x00#8, 0x03#8] (regs 0x00 0x05 0x00 0xFD 0x24 0x8000) [(0x305, 0xFE#8)]) =
    some ((regs 0x00 0x05 0x00 0xFD 0x24 0x8003), 7, [0x7F#8]) := by decide

/-- `36 FF` ROL $FF,X. -/
theorem test_v_36_rol : after [0x000] (machine [0x36#8, 0xFF#8] (regs 0x00 0x01 0x00 0xFD 0x24 0x8000) [(0x000, 0x40#8)]) =
    some ((regs 0x00 0x01 0x00 0xFD 0xA4 0x8002), 6, [0x80#8]) := by decide

/-- `6E 00 02` ROR $0200. -/
theorem test_v_6E_ror : after [0x200] (machine [0x6E#8, 0x00#8, 0x02#8] (regs 0x00 0x00 0x00 0xFD 0x25 0x8000) [(0x200, 0x02#8)]) =
    some ((regs 0x00 0x00 0x00 0xFD 0xA4 0x8003), 6, [0x81#8]) := by decide

/-- `4C 34 12` JMP $1234. -/
theorem test_v_4C_jmp : after [] (machine [0x4C#8, 0x34#8, 0x12#8] (regs 0x00 0x00 0x00 0xFD 0x24 0x8000) []) =
    some ((regs 0x00 0x00 0x00 0xFD 0x24 0x1234), 3, []) := by decide

/-- `6C FF 02` JMP ($02FF). -/
theorem test_v_6C_jmp : after [] (machine [0x6C#8, 0xFF#8, 0x02#8] (regs 0x00 0x00 0x00 0xFD 0x24 0x8000) [(0x2FF, 0x00#8), (0x200, 0x80#8), (0x300, 0x90#8)]) =
    some ((regs 0x00 0x00 0x00 0xFD 0x24 0x8000), 5, []) := by decide

/-- `20 10 80` JSR $8010. -/
theorem test_v_20_jsr : after [0x1FD, 0x1FC] (machine [0x20#8, 0x10#8, 0x80#8] (regs 0x00 0x00 0x00 0xFD 0x24 0x8000) []) =
    some ((regs 0x00 0x00 0x00 0xFB 0x24 0x8010), 6, [0x80#8, 0x02#8]) := by decide

/-- `60` RTS. -/
theorem test_v_60_rts : after [] (machine [0x60#8] (regs 0x00 0x00 0x00 0xFB 0x24 0x8000) [(0x1FC, 0x02#8), (0x1FD, 0x80#8)]) =
    some ((regs 0x00 0x00 0x00 0xFD 0x24 0x8003), 6, []) := by decide

/-- `60` RTS. -/
theorem test_v_60_rts_2 : after [] (machine [0x60#8] (regs 0x00 0x00 0x00 0xFE 0x24 0x8000) [(0x1FF, 0xFF#8), (0x100, 0xFF#8)]) =
    some ((regs 0x00 0x00 0x00 0x00 0x24 0x0000), 6, []) := by decide

/-- `90 02` BCC +2. -/
theorem test_v_90_bcc : after [] (machine [0x90#8, 0x02#8] (regs 0x00 0x00 0x00 0xFD 0x24 0x8000) []) =
    some ((regs 0x00 0x00 0x00 0xFD 0x24 0x8004), 3, []) := by decide

/-- `90 02` BCC +2. -/
theorem test_v_90_bcc_2 : after [] (machine [0x90#8, 0x02#8] (regs 0x00 0x00 0x00 0xFD 0x25 0x8000) []) =
    some ((regs 0x00 0x00 0x00 0xFD 0x25 0x8002), 2, []) := by decide

/-- `B0 02` BCS +2. -/
theorem test_v_B0_bcs : after [] (machine [0xB0#8, 0x02#8] (regs 0x00 0x00 0x00 0xFD 0x25 0x8000) []) =
    some ((regs 0x00 0x00 0x00 0xFD 0x25 0x8004), 3, []) := by decide

/-- `F0 FE` BEQ -2. -/
theorem test_v_F0_beq : after [] (machine [0xF0#8, 0xFE#8] (regs 0x00 0x00 0x00 0xFD 0x26 0x8000) []) =
    some ((regs 0x00 0x00 0x00 0xFD 0x26 0x8000), 3, []) := by decide

/-- `30 80` BMI -128. -/
theorem test_v_30_bmi : after [] (machine [0x30#8, 0x80#8] (regs 0x00 0x00 0x00 0xFD 0xA4 0x8000) []) =
    some ((regs 0x00 0x00 0x00 0xFD 0xA4 0x7F82), 4, []) := by decide

/-- `10 80` BPL -128. -/
theorem test_v_10_bpl : after [] (machine [0x10#8, 0x80#8] (regs 0x00 0x00 0x00 0xFD 0xA4 0x8000) []) =
    some ((regs 0x00 0x00 0x00 0xFD 0xA4 0x8002), 2, []) := by decide

/-- `50 10` BVC +16. -/
theorem test_v_50_bvc : after [] (machine [0x50#8, 0x10#8] (regs 0x00 0x00 0x00 0xFD 0x24 0x8000) []) =
    some ((regs 0x00 0x00 0x00 0xFD 0x24 0x8012), 3, []) := by decide

/-- `70 10` BVS +16. -/
theorem test_v_70_bvs : after [] (machine [0x70#8, 0x10#8] (regs 0x00 0x00 0x00 0xFD 0x64 0x8000) []) =
    some ((regs 0x00 0x00 0x00 0xFD 0x64 0x8012), 3, []) := by decide

/-- `00` BRK. -/
theorem test_v_00_brk : after [0x1FD, 0x1FC, 0x1FB] (machine [0x00#8] (regs 0x00 0x00 0x00 0xFD 0x24 0x8000) []) =
    some ((regs 0x00 0x00 0x00 0xFA 0x24 0x9100), 7, [0x80#8, 0x02#8, 0x34#8]) := by decide

/-- `00` BRK. -/
theorem test_v_00_brk_2 : after [0x101, 0x100, 0x1FF] (machine [0x00#8] (regs 0x00 0x00 0x00 0x01 0xE1 0x8000) []) =
    some ((regs 0x00 0x00 0x00 0xFE 0xE5 0x9100), 7, [0x80#8, 0x02#8, 0xF1#8]) := by decide

/-- `40` RTI. -/
theorem test_v_40_rti : after [] (machine [0x40#8] (regs 0x00 0x00 0x00 0xFA 0x24 0x8000) [(0x1FB, 0xFF#8), (0x1FC, 0x04#8), (0x1FD, 0x80#8)]) =
    some ((regs 0x00 0x00 0x00 0xFD 0xEF 0x8004), 6, []) := by decide

/-- `D0 03` BNE +3. -/
theorem test_v_D0_bne : after [] (machine [0xD0#8, 0x03#8] (regs 0x00 0x00 0x00 0xFD 0x24 0x80FD) []) =
    some ((regs 0x00 0x00 0x00 0xFD 0x24 0x8102), 4, []) := by decide

/-- `D0 FE` BNE -2. -/
theorem test_v_D0_bne_2 : after [] (machine [0xD0#8, 0xFE#8] (regs 0x00 0x00 0x00 0xFD 0x24 0x80FE) []) =
    some ((regs 0x00 0x00 0x00 0xFD 0x24 0x80FE), 4, []) := by decide

/-- `18` CLC. -/
theorem test_v_18_clc : after [] (machine [0x18#8] (regs 0x00 0x00 0x00 0xFD 0x25 0x8000) []) =
    some ((regs 0x00 0x00 0x00 0xFD 0x24 0x8001), 2, []) := by decide

/-- `38` SEC. -/
theorem test_v_38_sec : after [] (machine [0x38#8] (regs 0x00 0x00 0x00 0xFD 0x24 0x8000) []) =
    some ((regs 0x00 0x00 0x00 0xFD 0x25 0x8001), 2, []) := by decide

/-- `58` CLI. -/
theorem test_v_58_cli : after [] (machine [0x58#8] (regs 0x00 0x00 0x00 0xFD 0x24 0x8000) []) =
    some ((regs 0x00 0x00 0x00 0xFD 0x20 0x8001), 2, []) := by decide

/-- `78` SEI. -/
theorem test_v_78_sei : after [] (machine [0x78#8] (regs 0x00 0x00 0x00 0xFD 0x20 0x8000) []) =
    some ((regs 0x00 0x00 0x00 0xFD 0x24 0x8001), 2, []) := by decide

/-- `B8` CLV. -/
theorem test_v_B8_clv : after [] (machine [0xB8#8] (regs 0x00 0x00 0x00 0xFD 0x64 0x8000) []) =
    some ((regs 0x00 0x00 0x00 0xFD 0x24 0x8001), 2, []) := by decide

/-- `D8` CLD. -/
theorem test_v_D8_cld : after [] (machine [0xD8#8] (regs 0x00 0x00 0x00 0xFD 0x2C 0x8000) []) =
    some ((regs 0x00 0x00 0x00 0xFD 0x24 0x8001), 2, []) := by decide

/-- `F8` SED. -/
theorem test_v_F8_sed : after [] (machine [0xF8#8] (regs 0x00 0x00 0x00 0xFD 0x24 0x8000) []) =
    some ((regs 0x00 0x00 0x00 0xFD 0x2C 0x8001), 2, []) := by decide

/-- `EA` NOP. -/
theorem test_v_EA_nop : after [] (machine [0xEA#8] (regs 0x00 0x00 0x00 0xFD 0x24 0x8000) []) =
    some ((regs 0x00 0x00 0x00 0xFD 0x24 0x8001), 2, []) := by decide

/-- `1A` NOP (1 byte). -/
theorem test_v_1A_nop : after [] (machine [0x1A#8] (regs 0x00 0x00 0x00 0xFD 0x24 0x8000) []) =
    some ((regs 0x00 0x00 0x00 0xFD 0x24 0x8001), 2, []) := by decide

/-- `80 FF` NOP #$FF. -/
theorem test_v_80_nop : after [] (machine [0x80#8, 0xFF#8] (regs 0x00 0x00 0x00 0xFD 0x24 0x8000) []) =
    some ((regs 0x00 0x00 0x00 0xFD 0x24 0x8002), 2, []) := by decide

/-- `04 10` NOP $10. -/
theorem test_v_04_nop : after [] (machine [0x04#8, 0x10#8] (regs 0x00 0x00 0x00 0xFD 0x24 0x8000) [(0x010, 0x80#8)]) =
    some ((regs 0x00 0x00 0x00 0xFD 0x24 0x8002), 3, []) := by decide

/-- `1C FF 02` NOP $02FF,X. -/
theorem test_v_1C_nop : after [] (machine [0x1C#8, 0xFF#8, 0x02#8] (regs 0x00 0x01 0x00 0xFD 0x24 0x8000) []) =
    some ((regs 0x00 0x01 0x00 0xFD 0x24 0x8003), 5, []) := by decide

/-- `A7 10` LAX $10. -/
theorem test_v_A7_lax : after [] (machine [0xA7#8, 0x10#8] (regs 0x00 0x00 0x00 0xFD 0x24 0x8000) [(0x010, 0x8F#8)]) =
    some ((regs 0x8F 0x8F 0x00 0xFD 0xA4 0x8002), 3, []) := by decide

/-- `B3 10` LAX ($10),Y. -/
theorem test_v_B3_lax : after [] (machine [0xB3#8, 0x10#8] (regs 0x00 0x00 0xFF 0xFD 0x24 0x8000) [(0x010, 0x01#8), (0x011, 0x02#8), (0x300, 0x00#8)]) =
    some ((regs 0x00 0x00 0xFF 0xFD 0x26 0x8002), 6, []) := by decide

/-- `87 10` SAX $10. -/
theorem test_v_87_sax : after [0x010] (machine [0x87#8, 0x10#8] (regs 0xF0 0x3C 0x00 0xFD 0x24 0x8000) []) =
    some ((regs 0xF0 0x3C 0x00 0xFD 0x24 0x8002), 3, [0x30#8]) := by decide

/-- `EB 01` SBC #$01 ($EB). -/
theorem test_v_EB_sbc : after [] (machine [0xEB#8, 0x01#8] (regs 0x10 0x00 0x00 0xFD 0x25 0x8000) []) =
    some ((regs 0x0F 0x00 0x00 0xFD 0x25 0x8002), 2, []) := by decide

/-- `C7 10` DCP $10. -/
theorem test_v_C7_dcp : after [0x010] (machine [0xC7#8, 0x10#8] (regs 0x10 0x00 0x00 0xFD 0x24 0x8000) [(0x010, 0x11#8)]) =
    some ((regs 0x10 0x00 0x00 0xFD 0x27 0x8002), 5, [0x10#8]) := by decide

/-- `C3 10` DCP ($10,X). -/
theorem test_v_C3_dcp : after [0x300] (machine [0xC3#8, 0x10#8] (regs 0x00 0x00 0x00 0xFD 0x24 0x8000) [(0x010, 0x00#8), (0x011, 0x03#8), (0x300, 0x00#8)]) =
    some ((regs 0x00 0x00 0x00 0xFD 0x24 0x8002), 8, [0xFF#8]) := by decide

/-- `E7 10` ISC $10. -/
theorem test_v_E7_isc : after [0x010] (machine [0xE7#8, 0x10#8] (regs 0x20 0x00 0x00 0xFD 0x25 0x8000) [(0x010, 0x0F#8)]) =
    some ((regs 0x10 0x00 0x00 0xFD 0x25 0x8002), 5, [0x10#8]) := by decide

/-- `07 10` SLO $10. -/
theorem test_v_07_slo : after [0x010] (machine [0x07#8, 0x10#8] (regs 0x01 0x00 0x00 0xFD 0x24 0x8000) [(0x010, 0x81#8)]) =
    some ((regs 0x03 0x00 0x00 0xFD 0x25 0x8002), 5, [0x02#8]) := by decide

/-- `27 10` RLA $10. -/
theorem test_v_27_rla : after [0x010] (machine [0x27#8, 0x10#8] (regs 0xFF 0x00 0x00 0xFD 0x25 0x8000) [(0x010, 0x80#8)]) =
    some ((regs 0x01 0x00 0x00 0xFD 0x25 0x8002), 5, [0x01#8]) := by decide

/-- `47 10` SRE $10. -/
theorem test_v_47_sre : after [0x010] (machine [0x47#8, 0x10#8] (regs 0x00 0x00 0x00 0xFD 0x24 0x8000) [(0x010, 0x03#8)]) =
    some ((regs 0x01 0x00 0x00 0xFD 0x25 0x8002), 5, [0x01#8]) := by decide

/-- `67 10` RRA $10. -/
theorem test_v_67_rra : after [0x010] (machine [0x67#8, 0x10#8] (regs 0x10 0x00 0x00 0xFD 0x25 0x8000) [(0x010, 0x02#8)]) =
    some ((regs 0x91 0x00 0x00 0xFD 0xA4 0x8002), 5, [0x81#8]) := by decide

/-- `7B 00 03` RRA $0300,Y. -/
theorem test_v_7B_rra : after [0x301] (machine [0x7B#8, 0x00#8, 0x03#8] (regs 0x7F 0x00 0x01 0xFD 0x24 0x8000) [(0x301, 0x03#8)]) =
    some ((regs 0x81 0x00 0x01 0xFD 0xE4 0x8003), 7, [0x01#8]) := by decide

/-- `0B 80` ANC #$80. -/
theorem test_v_0B_anc : after [] (machine [0x0B#8, 0x80#8] (regs 0xFF 0x00 0x00 0xFD 0x24 0x8000) []) =
    some ((regs 0x80 0x00 0x00 0xFD 0xA5 0x8002), 2, []) := by decide

/-- `2B 7F` ANC #$7F. -/
theorem test_v_2B_anc : after [] (machine [0x2B#8, 0x7F#8] (regs 0x80 0x00 0x00 0xFD 0x25 0x8000) []) =
    some ((regs 0x00 0x00 0x00 0xFD 0x26 0x8002), 2, []) := by decide

/-- `4B 03` ALR #$03. -/
theorem test_v_4B_alr : after [] (machine [0x4B#8, 0x03#8] (regs 0xFF 0x00 0x00 0xFD 0x24 0x8000) []) =
    some ((regs 0x01 0x00 0x00 0xFD 0x25 0x8002), 2, []) := by decide

/-- `6B FF` ARR #$FF. -/
theorem test_v_6B_arr : after [] (machine [0x6B#8, 0xFF#8] (regs 0x80 0x00 0x00 0xFD 0x24 0x8000) []) =
    some ((regs 0x40 0x00 0x00 0xFD 0x65 0x8002), 2, []) := by decide

/-- `6B FF` ARR #$FF. -/
theorem test_v_6B_arr_2 : after [] (machine [0x6B#8, 0xFF#8] (regs 0xFF 0x00 0x00 0xFD 0x25 0x8000) []) =
    some ((regs 0xFF 0x00 0x00 0xFD 0xA5 0x8002), 2, []) := by decide

/-- `CB 05` AXS #$05. -/
theorem test_v_CB_axs : after [] (machine [0xCB#8, 0x05#8] (regs 0xFF 0x0F 0x00 0xFD 0x24 0x8000) []) =
    some ((regs 0xFF 0x0A 0x00 0xFD 0x25 0x8002), 2, []) := by decide

/-- `8B 12` XAA #$12. -/
theorem test_v_8B_xaa : after [] (machine [0x8B#8, 0x12#8] (regs 0xFF 0x0F 0x00 0xFD 0x24 0x8000) []) =
    some ((regs 0xFF 0x0F 0x00 0xFD 0x24 0x8002), 2, []) := by decide

/-- `AB 12` LXA #$12. -/
theorem test_v_AB_lxa : after [] (machine [0xAB#8, 0x12#8] (regs 0x00 0x00 0x00 0xFD 0x24 0x8000) []) =
    some ((regs 0x00 0x00 0x00 0xFD 0x24 0x8002), 2, []) := by decide

/-- `9F 00 02` SHA $0200,Y. -/
theorem test_v_9F_sha : after [] (machine [0x9F#8, 0x00#8, 0x02#8] (regs 0xFF 0xFF 0x01 0xFD 0x24 0x8000) []) =
    some ((regs 0xFF 0xFF 0x01 0xFD 0x24 0x8003), 5, []) := by decide

/-- `93 10` SHA ($10),Y. -/
theorem test_v_93_sha : after [] (machine [0x93#8, 0x10#8] (regs 0x00 0x00 0x00 0xFD 0x24 0x8000) []) =
    some ((regs 0x00 0x00 0x00 0xFD 0x24 0x8002), 6, []) := by decide

/-- `9C 00 02` SHY $0200,X. -/
theorem test_v_9C_shy : after [] (machine [0x9C#8, 0x00#8, 0x02#8] (regs 0x00 0x00 0x00 0xFD 0x24 0x8000) []) =
    some ((regs 0x00 0x00 0x00 0xFD 0x24 0x8003), 5, []) := by decide

/-- `9E 00 02` SHX $0200,Y. -/
theorem test_v_9E_shx : after [] (machine [0x9E#8, 0x00#8, 0x02#8] (regs 0x00 0x00 0x00 0xFD 0x24 0x8000) []) =
    some ((regs 0x00 0x00 0x00 0xFD 0x24 0x8003), 5, []) := by decide

/-- `9B 00 02` TAS $0200,Y. -/
theorem test_v_9B_tas : after [] (machine [0x9B#8, 0x00#8, 0x02#8] (regs 0x0F 0xF0 0x00 0xFD 0x24 0x8000) []) =
    some ((regs 0x0F 0xF0 0x00 0xFD 0x24 0x8003), 5, []) := by decide

/-- `BB FF 02` LAS $02FF,Y. -/
theorem test_v_BB_las : after [] (machine [0xBB#8, 0xFF#8, 0x02#8] (regs 0x00 0x00 0x01 0xFD 0x24 0x8000) []) =
    some ((regs 0x00 0x00 0x01 0xFD 0x24 0x8003), 4, []) := by decide

/-- `02` JAM. -/
theorem test_v_02_jam : after [] (machine [0x02#8] (regs 0x00 0x00 0x00 0xFD 0x24 0x8000) []) =
    some ((regs 0x00 0x00 0x00 0xFD 0x24 0x8001), 2, []) := by decide

/-- `AD 18 40` LDA $4018. -/
theorem test_v_AD_lda_2 : afterBus (machine [0xAD#8, 0x18#8, 0x40#8] (regs 0x00 0x00 0x00 0xFD 0x24 0x8000) []) =
    some ((regs 0x40 0x00 0x00 0xFD 0x24 0x8003), 0x40#8) := by decide

/-- `A5 00` LDA $00. -/
theorem test_v_A5_lda : afterBus (machine [0xA5#8, 0x00#8] (regs 0x00 0x00 0x00 0xFD 0x24 0x8000) [(0x000, 0x00#8)]) =
    some ((regs 0x00 0x00 0x00 0xFD 0x26 0x8002), 0x00#8) := by decide

/-! ### Interrupts and reset (spec/95_test_vectors.md sections 4 and 5) -/

/-- "NMI entry pushed bytes, from A=$80 P=$A4 PC=$8005 SP=$FD". -/
theorem test_nmi_entry :
    after [0x1FD, 0x1FC, 0x1FB] { machine [] (regs 0x80 0 0 0xFD 0xA4 0x8005) [] with nmiPending := true } =
      some (regs 0x80 0 0 0xFA 0xA4 0x9000, 7, [0x80#8, 0x05#8, 0xA4#8]) := by decide

/-- A plain machine with an MMC3 board, PC in its fixed last bank, and the IRQ line as given; bit 6 of `bank_select`
clear. -/
def mmc3Machine (bytes : List Byte) (c : Cpu) (irq : Bool) : State :=
  let s := machine bytes { c with pc := 0xE100 } []
  { s with cpu := c, mapper := .mmc3 { mmc3PowerOn .vertical with irqPending := irq } }

/-- IRQ pending and I clear: IRQ entry, P pushed with bit 4 clear, the line left as it is. -/
theorem test_irq_entry :
    after [0x1FD, 0x1FC, 0x1FB] (mmc3Machine [] (regs 0 0 0 0xFD 0x20 0xE100) true) =
      some (regs 0 0 0 0xFA 0x24 0x9100, 7, [0xE1#8, 0x00#8, 0x20#8]) := by decide

/-- IRQ pending and I set: the next instruction executes. -/
theorem test_irq_masked :
    after [] (mmc3Machine [0xE8#8] (regs 0 0 0 0xFD 0x24 0xE100) true) =
      some (regs 0 1 0 0xFD 0x24 0xE101, 2, []) := by decide

/-- NMI and IRQ together: NMI. -/
theorem test_nmi_before_irq :
    after [] { mmc3Machine [] (regs 0 0 0 0xFD 0x20 0xE100) true with nmiPending := true } =
      some (regs 0 0 0 0xFA 0x24 0x9000, 7, []) := by decide

/-- "From SP=$01 a reset gives SP=$FE"; registers kept, nothing pushed, PC from $FFFC; a pending NMI is dropped. -/
theorem test_reset_asserted :
    after [0x101, 0x100, 0x1FF]
        { machine [] (regs 0x37 0 0 0x01 0x26 0x800E) [] with nmiPending := true, host := [{ reset := true }] } =
      some (regs 0x37 0 0 0xFE 0x26 0x8000, 7, [0x00#8, 0x00#8, 0x00#8]) := by decide

/-- The host stops the loop. -/
theorem test_host_stops :
    (match step { plain with host := [{ stop := true }] } with | .refused .hostStopped => true | _ => false) = true := by
  decide

/-! ### The bus and the PPU's registers (spec/95_test_vectors.md V61b) -/

theorem test_ppuaddr_ppudata :
    let t := writes [(0x2006, 0x21), (0x2006, 0x08), (0x2007, 0xAB), (0x2007, 0xCD)] plain
    (t.ppu.v, t.ppu.t, t.ppu.w, t.ppu.vram) = (0x210A#15, 0x2108#15, false, [(0x108, 0xAB#8), (0x109, 0xCD#8)]) := by
  decide

theorem test_ppudata_reads :
    let t := writes [(0x2006, 0x21), (0x2006, 0x08), (0x2007, 0xAB), (0x2007, 0xCD), (0x2006, 0x21), (0x2006, 0x08)] plain
    readN 3 0x2007 t = [0x00#8, 0xAB#8, 0xCD#8] := by decide

theorem test_increment_32 :
    (writes [(0x2000, 0x04), (0x2006, 0x21), (0x2006, 0x0B), (0x2007, 0x00)] plain).ppu.v = 0x212B#15 := by decide

/-- $3F10 is $3F00; a palette read is immediate; a palette entry holds 6 bits. -/
theorem test_palette :
    let t := writes [(0x2006, 0x3F), (0x2006, 0x10), (0x2007, 0x2A), (0x2006, 0x3F), (0x2006, 0x00)] plain
    (busRead 0x2007 t).1 = 0x2A#8 ∧
      (writes [(0x2006, 0x3F), (0x2006, 0x04), (0x2007, 0xFF)] plain).ppu.palette.read 4 = 0x3F#8 := by decide

/-- Scroll and address writes sharing the toggle. -/
theorem test_scroll_and_address :
    let t := writes [(0x2000, 0x03), (0x2005, 0x7D), (0x2005, 0x5E)] plain
    let u := writes [(0x2006, 0x3D), (0x2006, 0xF0), (0x2005, 0x07)] t
    (t.ppu.t, t.ppu.x, t.ppu.w) = (0x6D6F#15, 5#3, false) ∧ (u.ppu.v, u.ppu.t, u.ppu.x, u.ppu.w) =
      (0x3DF0#15, 0x3DE0#15, 7#3, true) ∧ (busRead 0x2002 u).2.ppu.w = false := by decide

theorem test_oam_registers :
    let t := writes [(0x2003, 0xFE), (0x2004, 0x11), (0x2004, 0x22), (0x2004, 0x33)] plain
    (t.ppu.oam, t.ppu.oamaddr) = ([(0x00, 0x33#8), (0xFE, 0x11#8), (0xFF, 0x22#8)], 0x01#8) ∧
      readN 2 0x2004 (writes [(0x2003, 0xFE)] t) = [0x11#8, 0x11#8] := by decide

/-- The table of V61b: horizontal and vertical mirroring. -/
theorem test_nametable_mirroring :
    ([0x2000, 0x23FF, 0x2400, 0x2800, 0x2C00, 0x2FFF, 0x3000, 0x3EFF].map fun a => ntIndex .horizontal a) =
      [0x000, 0x3FF, 0x000, 0x400, 0x400, 0x7FF, 0x000, 0x6FF] ∧
    ([0x2000, 0x23FF, 0x2400, 0x2800, 0x2C00, 0x2FFF, 0x3000, 0x3EFF].map fun a => ntIndex .vertical a) =
      [0x000, 0x3FF, 0x400, 0x000, 0x400, 0x7FF, 0x000, 0x6FF] := by decide

theorem test_palette_index :
    [0x3F00, 0x3F04, 0x3F10, 0x3F14, 0x3F18, 0x3F1C, 0x3F1F, 0x3F20, 0x3FFF].map palIndex =
      [0x00, 0x04, 0x00, 0x04, 0x08, 0x0C, 0x1F, 0x00, 0x1F] := by decide

/-! ### Controllers and OAM DMA (spec/95_test_vectors.md V63a, V63b) -/

theorem test_controllers :
    let s := { plain with ctl0 := { plain.ctl0 with buttons := 0xA5#8 }, ctl1 := { plain.ctl1 with buttons := 0x01#8 } }
    let t := writes [(0x4016, 0x01), (0x4016, 0x00)] s
    (readN 10 0x4016 t).map (· &&& 1#8) = [1#8, 0#8, 1#8, 0#8, 0#8, 1#8, 0#8, 1#8, 1#8, 1#8] ∧
      (busRead 0x4016 { t with busLast := 0x40#8 }).1 = 0x41#8 ∧ (readN 1 0x4017 t).map (· &&& 1#8) = [1#8] := by decide

/-- The STA that starts at cyc=15 costs 518 and the one that starts at cyc=18 costs 517; the copy starts at `oamaddr`. -/
theorem test_oam_dma :
    let s := { machine [] (regs 0x02 0 0 0xFD 0x24 0x8000) [(0x200, 0xFF#8), (0x201, 0xFE#8)] with
      cyc := 15, ppu := { plain.ppu with oamaddr := 0x10#8 } }
    (match exec (.staAbs 0x4014) s, exec (.staAbs 0x4014) { s with cyc := 18 } with
      | .next t, .next u => (t.cyc, u.cyc, t.ppu.oam, t.ppu.oamaddr, t.busLast)
      | _, _ => (0, 0, [], 0, 0)) = (533, 535, [(0x10, 0xFF#8), (0x11, 0xFE#8)], 0x10#8, 0x00#8) := by decide +kernel

/-! ### The boards (spec/95_test_vectors.md V62a, V62b) -/

/-- Four 16KB banks, byte 0 of bank b is $B0+b. -/
def mmc1Machine : State :=
  { plain with
    cart := { Cart.empty with
      prgUnits := 4, prg := [(0, 0xB0#8), (0x4000, 0xB1#8), (0x8000, 0xB2#8), (0xC000, 0xB3#8)] }
    mapper := .mmc1 mmc1PowerOn }

theorem test_mmc1_serial_write :
    let t := writes [(0xE000, 0), (0xE000, 1), (0xE000, 0), (0xE000, 0), (0xE000, 0)] mmc1Machine
    t.mapper = .mmc1 { mmc1PowerOn with prgbank := 0x02 } ∧ (busRead 0x8000 t).1 = 0xB2#8 := by decide

theorem test_mmc1_partial_and_reset :
    (writes [(0xE000, 1), (0xE000, 1)] mmc1Machine).mapper = .mmc1 { mmc1PowerOn with cnt := 2, sr := 0x18 } ∧
      (writes [(0xE000, 1), (0xE000, 1), (0xE000, 0x80)] mmc1Machine).mapper = .mmc1 mmc1PowerOn := by decide

theorem test_mmc1_prg_mode_2 :
    let t := writes [(0x8000, 0), (0x8000, 1), (0x8000, 0), (0x8000, 1), (0x8000, 0)]
      { mmc1Machine with mapper := .mmc1 { mmc1PowerOn with prgbank := 0x03 } }
    (busRead 0x8000 t).1 = 0xB0#8 ∧ (busRead 0xC000 t).1 = 0xB3#8 ∧ mapperMirroring t.cart t.mapper = .vertical := by
  decide

/-- Eight 8KB banks, byte 0 of bank b is $C0+b. -/
def mmc3Banks : State :=
  { plain with
    cart := { Cart.empty with
      prgUnits := 4
      prg := [(0, 0xC0#8), (0x2000, 0xC1#8), (0x4000, 0xC2#8), (0x6000, 0xC3#8), (0x8000, 0xC4#8), (0xA000, 0xC5#8),
        (0xC000, 0xC6#8), (0xE000, 0xC7#8)]
      mirroring := .vertical }
    mapper := .mmc3 (mmc3PowerOn .vertical) }

theorem test_mmc3_prg_banks :
    let t := writes [(0x8000, 0x06), (0x8001, 0x03), (0x8000, 0x07), (0x8001, 0x05)] mmc3Banks
    let u := writes [(0x8000, 0x46)] t
    (busRead 0x8000 t).1 = 0xC3#8 ∧ (busRead 0xA000 t).1 = 0xC5#8 ∧ (busRead 0x8000 u).1 = 0xC6#8 ∧
      (busRead 0xC000 u).1 = 0xC3#8 ∧ (busRead 0xE000 u).1 = 0xC7#8 := by decide

theorem test_mmc3_mirroring_and_ram :
    mapperMirroring mmc3Banks.cart (writes [(0xA000, 0x01)] mmc3Banks).mapper = .horizontal ∧
      (busRead 0x6000 { writes [(0xA001, 0x00), (0x6000, 0x55)] mmc3Banks with busLast := 0x60#8 }).1 = 0x60#8 ∧
      (busRead 0x6000 (writes [(0xA001, 0xC0), (0x6000, 0x55), (0xA001, 0x80)] mmc3Banks)).1 = 0x00#8 := by decide

/-- With the latch at 3, the fourth counted rise of A12 asserts the line. -/
theorem test_mmc3_counter :
    (match (writes [(0xC000, 0x03), (0xC001, 0x00), (0xE001, 0x00)] mmc3Banks).mapper with
      | .mmc3 r => [3, 4].map fun n => (Nat.repeat mmc3ClockCounter n r).irqPending
      | _ => []) = [false, true] := by decide

/-! ### The dot engine (rules R364, R366) -/

/-- The tick into scanline 241, dot 1 raises the NMI; the tick before it does not. -/
theorem test_vblank_nmi :
    let s := { plain with ppu := { plain.ppu with scanline := 241, dot := 0, ctrl := 0x80#8 } }
    let r := { plain with ppu := { plain.ppu with scanline := 240, dot := 340, ctrl := 0x80#8 } }
    (s.tick.nmiPending, s.tick.ppu.vblank, s.tick.ppu.frameReady, r.tick.nmiPending) = (true, true, true, false) := by
  decide

/-- The frame counter moves at the wrap to scanline 0. -/
theorem test_frame_wrap :
    let t := { plain with ppu := { plain.ppu with scanline := 261, dot := 340, frame := 4 } }.tick
    (t.ppu.scanline, t.ppu.dot, t.ppu.frame) = (0, 0, 5) := by decide

/-! ### The host's questions -/

theorem test_decode_table_word :
    decodeTableWord 24 0x02008D = some (.staAbs 0x0200) ∧ decodeTableWord 8 0xEA = some .nop ∧
      decodeTableWord 16 0xFBD0 = some (.bne 0xFB#8) := by decide

theorem test_fetch_word_runs :
    after [] (State.reset.withFetchWord 16 0x05A9) = some (regs 0x05 0 0 0xFD 0x24 0x0002, 2, []) := by decide


/-! ### Witnesses: for each obligation with hypotheses, what meets them, clause by clause and at the boundaries -/

/-- Every opcode has an instruction, so no form of Safety.lean's lists is empty. -/
theorem witness_every_opcode : ∀ op : Byte, (decodeOp op 0#8 0#8).opcode = op := by decide

/-- The lists of forms that the statements about instructions range over are not empty. -/
theorem witness_forms : ∀ r ∈ [150, 151, 152, 153, 154, 155, 156, 157, 158, 159, 160, 161, 180, 181, 182, 183, 184, 185,
    186, 187, 188, 200, 201, 202, 203, 204, 205, 206, 207, 208, 209, 225, 226, 227, 228, 229, 230, 231, 232, 240, 241,
    242, 243, 244, 245, 246, 247, 251, 252, 253, 255, 256, 257, 258, 259, 260, 261, 262, 263, 264, 265, 266, 267, 271,
    272, 273, 274, 275, 276, 277, 278], (formsOfRule r).isEmpty = false := by decide

/-- The outcome is a next state. -/
def isNext : Result → Bool
  | .next _ => true
  | _ => false

theorem exists_next {r : Result} (h : isNext r = true) : ∃ t, r = .next t := by
  cases r with
  | next t => exact ⟨t, rfl⟩
  | fault f => cases h
  | refused e => cases h

/-- The outcome is a refusal. -/
def isRefused : Result → Bool
  | .refused _ => true
  | _ => false

theorem exists_refused {r : Result} (h : isRefused r = true) : ∃ e, r = .refused e := by
  cases r with
  | next t => cases h
  | fault f => cases h
  | refused e => exact ⟨e, rfl⟩

/-- A machine about to run LDA $0234 from $8000. -/
def ldaMachine : State := machine [0xAD#8, 0x34#8, 0x02#8] (regs 0 0 0 0xFD 0x24 0x8000) [(0x234, 0x7F#8)]

theorem witness_StepRunsDecodedInstruction :
    ldaMachine.quiet = true ∧ decode (fetchBytes 3 ldaMachine).1 = .ok (.ldaAbs 0x0234, []) := ⟨by decide, rfl⟩

/-- Plain addresses at the boundaries of the regions, and the three bytes a fetch reads. -/
theorem witness_FetchReadsTheStoredBytes :
    (∀ k : Nat, k < 3 →
      ldaMachine.plainAt (ldaMachine.cpu.pc + BitVec.ofNat 16 k) = true ∧
      ldaMachine.byteAt (ldaMachine.cpu.pc + BitVec.ofNat 16 k) = ([0xAD#8, 0x34#8] ++ [0x02#8])[k]?) ∧
    (plain.plainAt 0x0000 ∧ plain.plainAt 0x1FFF ∧ plain.plainAt 0x6000 ∧ plain.plainAt 0x7FFF ∧
      plain.plainAt 0x8000 ∧ plain.plainAt 0xFFFF) := by
  refine ⟨?_, by decide⟩
  intro k hk
  match k, hk with
  | 0, _ => exact ⟨by decide, by decide⟩
  | 1, _ => exact ⟨by decide, by decide⟩
  | 2, _ => exact ⟨by decide, by decide⟩

theorem witness_EveryStepAnswersUnlessTheHostStops :
    (State.takeTurn { plain with host := [{ stop := true }] }).1.stop = true ∧
      (plain.takeTurn.1.stop = false ∧ plain.params.unstablePolicy = .nop) ∧
      (∃ r, step { plain with host := [{ stop := true }] } = .refused r) ∧
      ∃ r, step { machine [0x02#8] plain.cpu [] with params := { unstablePolicy := .refuse } } = .refused r :=
  ⟨rfl, ⟨rfl, rfl⟩, exists_refused (by decide), exists_refused (by decide)⟩

/-- An empty list of turns, and a list of one that does not stop. -/
theorem witness_RunsGoOnUntilTheHostStops :
    (plain.params.unstablePolicy = .nop ∧ plain.hostNeverStops = true) ∧
      State.hostNeverStops { plain with host := [{ reset := true }] } = true := ⟨⟨rfl, rfl⟩, rfl⟩

/-- A step that answers a next state, with nothing and with a button write before it. -/
theorem witness_steps : (∃ t, step plain = .next t) ∧ ∃ t, step { plain with host := [{ buttons0 := some 1#8 }] } = .next t :=
  ⟨step_progress _ rfl rfl, step_progress _ rfl rfl⟩

theorem witness_PowerOnState : ∃ s, powerOn { cart := image 0 32768 8192 } = .ok s := ⟨_, rfl⟩

/-- An accepted image, an unsupported mapper and a malformed size, each in canonical form. -/
theorem witness_ConstructionAcceptsExactlyTheListedImages :
    ∀ c ∈ [image 4 524288 262144, image 2 16384 0, image 0 49152 0],
      c.prg.wf c.prgLen = true ∧ c.chr.wf c.chrLen = true := by decide

theorem witness_HostResetRunsTheResetSequence :
    ∃ (s : State) (h : HostTurn) (rest : List HostTurn), s.host = h :: rest ∧ h.stop = false ∧ h.reset = true ∧
      s.nmiPending = true :=
  ⟨{ plain with host := [{ reset := true }], nmiPending := true }, { reset := true }, [], rfl, rfl, rfl, rfl⟩

/-- The poll's three clauses, the last with each of its reasons, and a boundary at which the host writes buttons. -/
theorem witness_PollTakesNmiThenUnmaskedIrq :
    (∃ s b : State, s.takeTurn.1.stop = false ∧ s.takeTurn.1.reset = false ∧
      b = applyHost s.takeTurn.1 s.takeTurn.2 ∧ b.nmiPending = true) ∧
    (∃ s b : State, s.takeTurn.1.stop = false ∧ s.takeTurn.1.reset = false ∧
      b = applyHost s.takeTurn.1 s.takeTurn.2 ∧ b.nmiPending = false ∧ b.mapper.irqPending = true ∧
      getFlag b.cpu.p .I = false) ∧
    (∃ s b : State, s.takeTurn.1.stop = false ∧ s.takeTurn.1.reset = false ∧
      b = applyHost s.takeTurn.1 s.takeTurn.2 ∧ b.nmiPending = false ∧ b.mapper.irqPending = false) ∧
    ∃ s b : State, s.takeTurn.1.stop = false ∧ s.takeTurn.1.reset = false ∧
      b = applyHost s.takeTurn.1 s.takeTurn.2 ∧ b.nmiPending = false ∧ b.mapper.irqPending = true ∧
      getFlag b.cpu.p .I = true :=
  ⟨⟨{ plain with host := [{ buttons0 := some 1#8 }], nmiPending := true }, _, rfl, rfl, rfl, rfl⟩,
    ⟨mmc3Machine [] (regs 0 0 0 0xFD 0x20 0xE100) true, _, rfl, rfl, rfl, rfl, rfl, rfl⟩,
    ⟨plain, _, rfl, rfl, rfl, rfl, rfl⟩,
    ⟨mmc3Machine [] (regs 0 0 0 0xFD 0x24 0xE100) true, _, rfl, rfl, rfl, rfl, rfl, rfl⟩⟩

theorem witness_RtiUndoesInterruptEntry :
    plain.statusWf ∧ plain.ram.wf 2048 = true ∧
      ∀ v ∈ [(0xFFFA#16 : Addr), 0xFFFE#16], v = 0xFFFA#16 ∨ v = 0xFFFE#16 :=
  ⟨⟨by decide, by decide⟩, by decide, by simp⟩

/-- The indexed forms with and without a page cross, and at the wrap to $0000; a pointer at $FF. -/
theorem witness_EffectiveAddresses :
    (0x0310#16 : Addr) = BitVec.ofNat 16 ((0x02F0#16 : Addr).toNat + (0x20#8 : Byte).toNat) ∧
    (0x0000#16 : Addr) = BitVec.ofNat 16 ((0xFFFF#16 : Addr).toNat + (0x01#8 : Byte).toNat) ∧
    ldaMachine.ram.read (0xFF % 256) = 0#8 ∧ ldaMachine.ram.read ((0xFF + 1) % 256) = 0#8 := by decide

/-- The forms that the memory operations list: one of each mode of an accumulator form and of a memory form. -/
theorem witness_IncrementsShiftsAndRotates :
    (∃ f ∈ formsOfRule 206, f.mode = .accumulator) ∧ (∃ f ∈ formsOfRule 206, f.mode ≠ .accumulator) ∧
      (∀ f ∈ formsOfRule 258, f.mode ≠ .accumulator) := by decide

/-- The two reads of an indirect jump whose pointer ends a page. -/
theorem witness_JumpsCallsAndReturns :
    ∃ (lo hi : Byte) (t u : State), busRead 0x02FF ldaMachine = (lo, t) ∧
      busRead (BitVec.ofNat 16 ((0x02FF#16 : Addr).toNat / 256 * 256 + ((0x02FF#16 : Addr).toNat + 1) % 256)) t = (hi, u) :=
  ⟨(busRead 0x02FF ldaMachine).1, (busRead 0x0200 (busRead 0x02FF ldaMachine).2).1, _, _, rfl, rfl⟩

theorem witness_UnstableOpcodesFollowThePolicy :
    plain.params.unstablePolicy = .nop ∧
      (State.params { plain with params := { unstablePolicy := .refuse } }).unstablePolicy = .refuse := ⟨rfl, rfl⟩

/-- Instructions that answer a next state: a read, a store to OAM DMA's register, a taken branch. -/
theorem witness_CostOfEveryInstruction :
    (∃ t, exec (.ldaAbsX 0x02F0) plain = .next t) ∧ (∃ t, exec (.bne 0x80) plain = .next t) ∧
      (∃ t, exec (.staAbs 0x4014) plain = .next t) :=
  ⟨exists_next (by decide), exists_next (by decide), exists_next (by decide)⟩

theorem witness_DecimalFlagChangesNoResult :
    (Instr.adcImm 0x09).row.kind ∉ [Mnemonic.SED, .CLD, .PLP, .RTI, .PHP, .BRK] := by decide

theorem witness_NonStoringInstructionsLeaveMemory :
    (∃ t, exec (.ldaAbs 0x2007) plain = .next t) ∧ storedTo (.ldaAbs 0x2007) plain = none ∧
      isPushing (Instr.ldaAbs 0x2007).row.kind = false :=
  ⟨exists_next (by decide), by decide, by decide⟩

/-- Stores at the boundaries of the clauses. -/
theorem witness_StoresChangeOnlyTheirByte :
    (∀ ea ∈ [(0x1FFF#16 : Addr), 0x4000#16, 0x7FFF#16, 0x8000#16, 0xFFFF#16],
      isNext (exec (.staAbs ea) plain) = true ∧
        storedTo (.staAbs ea) plain = some ea) ∧
    (¬ sameCell 0x0000 0x1FFF ∧ ¬ sameCell 0x8000 0x7FFF) ∧ sameCell 0x07FF 0x1FFF := by
  refine ⟨?_, ⟨?_, ?_⟩, ?_⟩
  · simp only [List.forall_mem_cons]
    refine ⟨?_, ?_, ?_, ?_, ?_, ?_⟩ <;> first | exact fun _ h => absurd h List.not_mem_nil | decide
  all_goals simp [sameCell]

/-- An MMC3 machine with the given byte in its RAM protect register. -/
def protect (b : Byte) : State := { plain with mapper := .mmc3 { mmc3PowerOn .vertical with ramProtect := b } }

/-- Both ends of each range of a read without side effects, and of the absorbed writes; PRG RAM readable and not. -/
theorem witness_ReadsWithoutSideEffects :
    (∀ a ∈ [(0x0000#16 : Addr), 0x1FFF#16, 0x4000#16, 0x4015#16, 0x4018#16, 0x5FFF#16, 0x6000#16, 0x7FFF#16, 0x8000#16,
        0xFFFF#16], a.toNat < 0x2000 ∨ (0x4000 ≤ a.toNat ∧ a ≠ 0x4016#16 ∧ a ≠ 0x4017#16)) ∧
    (∀ a ∈ [(0x4000#16 : Addr), 0x4013#16, 0x4015#16, 0x4017#16, 0x4018#16, 0x5FFF#16],
      0x4000 ≤ a.toNat ∧ a.toNat < 0x6000 ∧ a ≠ 0x4014#16 ∧ a ≠ 0x4016#16) ∧
    ((protect 0x80).mapper.ramReadable = true ∧ (protect 0x40).mapper.ramReadable = false) :=
  ⟨by simp, by simp, by decide⟩

/-- Both ends of RAM's mirrors, of the registers' and of PRG RAM; each gate of MMC3's protect register. -/
theorem witness_MirrorsAreTheSameCellsAndRegisters :
    (plain.ram.wf 2048 = true ∧ (0x0800#16 : Addr).toNat < 0x2000 ∧ (0x1FFF#16 : Addr).toNat < 0x2000) ∧
      (∀ a ∈ [(0x2000#16 : Addr), 0x3FFF#16], 0x2000 ≤ a.toNat ∧ a.toNat < 0x4000) ∧
      (∀ a ∈ [(0x6000#16 : Addr), 0x7FFF#16], 0x6000 ≤ a.toNat ∧ a.toNat < 0x8000) ∧
      plain.cart.prgram.wf 8192 = true ∧
      ([0x00#8, 0x40#8, 0x80#8, 0xC0#8].map fun b : Byte => (b.getLsbD 7, b.getLsbD 7 && !b.getLsbD 6)) =
        [(false, false), (false, false), (true, true), (true, false)] :=
  ⟨by decide, by simp, by simp, by decide, by decide⟩

/-- A machine whose VRAM address is `v`. -/
def atVram (v : BitVec 15) : State := { plain with ppu := { plain.ppu with v := v } }

/-- A status byte with all three flags set, and VRAM addresses at both sides of $3F00 and at the top. -/
theorem witness_PpuRegisterReads :
    (let s := { plain with ppu := { plain.ppu with vblank := true, sprite0hit := true, overflow := true } }
     (0xE0#8 : Byte).toNat = s.busLast.toNat % 32 + 32 * s.ppu.overflow.toNat + 64 * s.ppu.sprite0hit.toNat
       + 128 * s.ppu.vblank.toNat) ∧
    ∀ c ∈ [((0x3EFF#14 : BitVec 14), (0x3EFF#15 : BitVec 15)), (0x3F00#14, 0x3F00#15), (0x3FFF#14, 0x7FFF#15)],
      c.1.toNat = (atVram c.2).ppu.v.toNat % 16384 := ⟨by decide, by simp [atVram]⟩

/-- The toggle in both positions. -/
theorem witness_PpuRegisterWrites :
    plain.ppu.w = false ∧ ({ plain.ppu with w := true } : Ppu).w = true := ⟨rfl, rfl⟩

/-- VRAM addresses at both sides of $2000 and of $3F00, and at the top. -/
theorem witness_PpuDataWrite :
    ∀ c ∈ [((0x1FFF#14 : BitVec 14), (0x1FFF#15 : BitVec 15)), (0x2000#14, 0x6000#15), (0x3EFF#14, 0x3EFF#15),
        (0x3F00#14, 0x3F00#15), (0x3FFF#14, 0x7FFF#15)], c.1.toNat = (atVram c.2).ppu.v.toNat % 16384 := by simp [atVram]

/-- A machine whose next tick is at the given position. -/
def before (scanline dot : Nat) : State := { plain with ppu := { plain.ppu with scanline := scanline, dot := dot } }

theorem witness_VblankBeginsAndEnds :
    ((advance (before 241 0).ppu).scanline = 241 ∧ (advance (before 241 0).ppu).dot = 1) ∧
      ((advance (before 261 0).ppu).scanline = 261 ∧ (advance (before 261 0).ppu).dot = 1) := by decide

/-- The first and last idle ticks, the tick after 241:1, and disabled rendering on and off the picture. -/
theorem witness_IdleLinesAndDisabledRendering :
    (∀ s ∈ [before 239 340, before 241 1, before 260 339],
      ¬ ((advance s.ppu).scanline = 241 ∧ (advance s.ppu).dot = 1) ∧
      ¬ ((advance s.ppu).scanline = 261 ∧ (advance s.ppu).dot = 1) ∧
      240 ≤ (advance s.ppu).scanline ∧ (advance s.ppu).scanline ≤ 260) ∧
    (∀ s ∈ [before 0 0, before 239 255, before 239 256],
      ¬ ((advance s.ppu).scanline = 241 ∧ (advance s.ppu).dot = 1) ∧
      ¬ ((advance s.ppu).scanline = 261 ∧ (advance s.ppu).dot = 1) ∧
      s.ppu.mask.getLsbD 3 = false ∧ s.ppu.mask.getLsbD 4 = false) := by decide

/-- A position on the grid with NMI enabled, and a tick that raises the NMI. -/
theorem witness_OneFrameRaisesOneNmi :
    (∃ s : State, s.positionWf ∧ s.ppu.ctrl.getLsbD 7 = true) ∧
      ∃ s : State, s.nmiPending = false ∧ s.tick.nmiPending = true :=
  ⟨⟨{ plain with ppu := { plain.ppu with ctrl := 0x80#8 } }, ⟨by decide, by decide, by decide⟩, by decide⟩,
    ⟨{ plain with ppu := { plain.ppu with scanline := 241, dot := 0, ctrl := 0x80#8 } }, rfl, by decide⟩⟩

/-- A machine whose next tick is at the given position with both layers enabled. -/
def rendering (scanline dot : Nat) : State :=
  { before scanline dot with ppu := { (before scanline dot).ppu with mask := 0x18#8 } }

/-- Rendering at the boundaries of each kind of dot, on the first, the last and the pre-render line; and, rendering
enabled, a line that does not render. -/
theorem witness_ScrollUpdates :
    (∀ d ∈ [0, 6, 7, 8, 248, 255, 256, 257, 279, 280, 303, 304, 319, 320, 327, 335, 336, 339],
      ∀ l ∈ [0, 239, 261], (advance (rendering l d).ppu).renders ∧ (advance (rendering l d).ppu).dot = d + 1) ∧
    ¬ (advance (rendering 239 340).ppu).renders ∧ ¬ (advance (before 0 0).ppu).renders := by
  unfold Ppu.renders
  decide

/-- A machine whose secondary OAM holds one sprite at line 20, tile $43, flipped as `attr` says. -/
def oneSprite (scanline dot : Nat) (ctrl attr : Byte) : State :=
  { rendering scanline dot with ppu := { (rendering scanline dot).ppu with
      ctrl := ctrl, secCount := 1, sec := (rendering scanline dot).ppu.sec.set 0 ⟨20#8, 0x43#8, attr, 0x10#8⟩ } }

/-- Every fetch of the first and the last slot, filled and empty; the first and the last row of a sprite, in both sizes,
flipped and not. -/
theorem witness_DotsFollowTheFetchSchedule :
    (∀ d ∈ [0, 2, 4, 6, 8, 247, 256, 258, 260, 262, 263, 318, 319, 320, 322, 335, 336, 338],
      (advance (oneSprite 20 d 0 0).ppu).renders ∧ (advance (oneSprite 20 d 0 0).ppu).dot = d + 1) ∧
    ((oneSprite 20 262 0 0).ppu.sec[0]? = some ⟨20#8, 0x43#8, 0#8, 0x10#8⟩ ∧ 0 < (oneSprite 20 262 0 0).ppu.secCount) ∧
    ((oneSprite 20 318 0 0).ppu.sec[7]? = some ⟨0#8, 0#8, 0#8, 0#8⟩ ∧ (oneSprite 20 318 0 0).ppu.secCount ≤ 7) ∧
    (∀ c ∈ [(20, 0x00#8, 0), (27, 0x00#8, 7), (20, 0x20#8, 0), (35, 0x20#8, 15)],
      (oneSprite c.1 260 c.2.1 0x80#8).ppu.scanline = (20#8 : Byte).toNat + c.2.2 ∧
        c.2.2 < (if (oneSprite c.1 260 c.2.1 0x80#8).ppu.ctrl.getLsbD 5 then 16 else 8)) := by
  unfold Ppu.renders
  decide

/-- OAM whose sprites 0 and 63 are on scanline 20 and the others below the picture. -/
def twoSprites : Memory :=
  Memory.ofCells 256 ((List.range 64).map fun n => (4 * n, if n = 0 ∨ n = 63 then 0x14#8 else 0xF0#8))

/-- Two sprites in range at dot 257; the pre-render line; a tick next to each side of the dot. -/
theorem witness_SpriteEvaluationSelectsTheFirstEight :
    (∃ (s : State) (q : Ppu) (inRange : List Nat), q = advance s.ppu ∧ q.scanline < 240 ∧ q.dot = 257 ∧
      (s.ppu.mask.getLsbD 3 || s.ppu.mask.getLsbD 4) = true ∧
      inRange = (List.range 64).filter (fun n =>
        decide ((s.ppu.oam.read (4 * n)).toNat ≤ q.scanline) &&
        decide (q.scanline < (s.ppu.oam.read (4 * n)).toNat + (if s.ppu.ctrl.getLsbD 5 then 16 else 8))) ∧
      inRange[1]? = some 63) ∧
    ((advance (rendering 261 256).ppu).renders ∧ (advance (rendering 261 256).ppu).scanline = 261 ∧
      (advance (rendering 261 256).ppu).dot = 257) ∧
    ((advance (rendering 20 255).ppu).dot ≠ 257 ∧ (advance (rendering 20 257).ppu).dot ≠ 257 ∧
      ¬ (advance (rendering 240 256).ppu).renders) :=
  ⟨⟨{ before 20 256 with ppu := { (before 20 256).ppu with mask := 0x08#8, oam := twoSprites } }, _, [0, 63], rfl,
    by decide, by decide, by decide, by decide +kernel, rfl⟩, by unfold Ppu.renders; decide,
    by unfold Ppu.renders; decide⟩

/-- Ticks at the first and last picture dots and just outside them, from a framebuffer and a palette in form, with
rendering enabled and disabled. -/
theorem witness_EachVisibleDotWritesItsCell :
    (∀ s ∈ [before 0 0, before 239 255, before 239 256, before 239 340], s.ppu.framebuffer.wf 61440 = true) ∧
      ((advance (before 0 0).ppu).drawsPixel ∧ ¬ (advance (before 0 0).ppu).renders) ∧
      ((advance (rendering 239 255).ppu).drawsPixel ∧ (advance (rendering 239 255).ppu).renders) ∧
      ¬ (advance (rendering 239 256).ppu).drawsPixel ∧
      ∀ i, (plain.ppu.palette.read i).toNat < 64 :=
  ⟨by decide, by unfold Ppu.renders; decide, by unfold Ppu.renders; decide, by decide,
    fun _ => (by decide : (0#8 : Byte).toNat < 64)⟩

/-- A machine with an opaque background pixel under an opaque pixel of sprite 0 at column 100, both layers enabled. -/
def hitMachine (dot : Nat) : State :=
  { rendering 10 dot with ppu := { (rendering 10 dot).ppu with
      bgLo := 0x4000#16, spr0OnLine := true, spriteCount := 1
      slots := (rendering 10 dot).ppu.slots.set 0 ⟨0x80#8, 0#8, 0#8, 100#8⟩ } }

/-- The dot of that pixel sets the hit flag, the next one does not. -/
theorem witness_SpriteZeroHitNeedsBothLayers :
    ((advance (hitMachine 100).ppu).drawsPixel ∧ hitAt (advance (hitMachine 100).ppu) = true) ∧
    ((hitMachine 100).ppu.sprite0hit = false ∧ (hitMachine 100).tick.ppu.sprite0hit = true) ∧
    (hitAt (advance (hitMachine 101).ppu) = false ∧ (hitMachine 101).tick.ppu.sprite0hit = false) := by decide

/-- Both ends of every window, on each board, MMC1 in each of its PRG modes. -/
theorem witness_PrgRomWindows :
    (∀ a ∈ [(0x8000#16 : Addr), 0x9FFF#16, 0xA000#16, 0xBFFF#16, 0xC000#16, 0xDFFF#16, 0xE000#16, 0xFFFF#16],
      0x8000 ≤ a.toNat) ∧
    plain.mapper = .nrom ∧ mmc1Machine.mapper = .mmc1 mmc1PowerOn ∧
    mmc3Banks.mapper = .mmc3 (mmc3PowerOn .vertical) ∧
    ([0x00#5, 0x04#5, 0x08#5, 0x0C#5].map fun c : BitVec 5 => c.toNat / 4 % 4) = [0, 1, 2, 3] :=
  ⟨by simp, rfl, rfl, rfl, by decide⟩

/-- Both ends of each range of the PPU's address space; MMC3's banks 0 to 7 in both arrangements. -/
theorem witness_PpuAddressSpace :
    ((0x0000#14 : BitVec 14).toNat < 0x2000 ∧ (0x1FFF#14 : BitVec 14).toNat < 0x2000) ∧
    (0x2000 ≤ (0x2000#14 : BitVec 14).toNat ∧ (0x3EFF#14 : BitVec 14).toNat < 0x3F00) ∧
    (0x3F00 ≤ (0x3F00#14 : BitVec 14).toNat ∧ 0x3F00 ≤ (0x3FFF#14 : BitVec 14).toNat) ∧
    ((List.range 8).map fun i => (i * 1024 / 1024 + 4) % 8) = [4, 5, 6, 7, 0, 1, 2, 3] ∧
    ((List.range 4).map fun i => (0x2000 + 1024 * i) / 1024 % 4) = [0, 1, 2, 3] := by decide

theorem witness_BoardRegisterWrites :
    (∀ a ∈ [(0x8000#16 : Addr), 0x9FFF#16, 0xA000#16, 0xBFFF#16, 0xC000#16, 0xDFFF#16, 0xE000#16, 0xFFFF#16],
      0x8000 ≤ a.toNat) ∧
    plain.mapper = .nrom ∧ mmc3Banks.mapper = .mmc3 (mmc3PowerOn .vertical) := ⟨by simp, rfl, rfl⟩

/-- The first and the fifth write of a register; five writes of the largest and smallest values to both ends of the range;
the write with bit 7 set. -/
theorem witness_FiveWritesLoadAnMmc1Register :
    (mmc1Machine.mapper = .mmc1 mmc1PowerOn ∧ mmc1PowerOn.cnt = 0) ∧
    (∃ r : Mmc1, (State.mapper { plain with mapper := .mmc1 { mmc1PowerOn with cnt := 4 } }) = .mmc1 r ∧ r.cnt = 4) ∧
    (∀ a ∈ [(0x8000#16 : Addr), 0xFFFF#16, 0xA000#16, 0xC000#16, 0xE000#16], 0x8000 ≤ a.toNat) ∧
    (∀ v ∈ [(0x7F#8 : Byte), 0x00#8, 0x01#8, 0x00#8, 0x01#8], v.toNat < 128) ∧
    (0x15#5 : BitVec 5).toNat = 0x7F % 2 + 2 * (0x00 % 2) + 4 * (0x01 % 2) + 8 * (0x00 % 2) + 16 * (0x01 % 2) ∧
    128 ≤ (0x80#8 : Byte).toNat := ⟨⟨rfl, rfl⟩, ⟨_, rfl, rfl⟩, by simp, by simp, by decide, by decide⟩

/-- A board with A12 high, and the two with A12 low since 5, at the filter's boundary. -/
theorem witness_Mmc3ScanlineCounter :
    let r := mmc3PowerOn .vertical
    (r.a12LowSince ≤ 10 ∧ (0x0FFF#14 : BitVec 14).getLsbD 12 = r.a12) ∧
    ((0x0000#14 : BitVec 14).getLsbD 12 = false ∧ ({ r with a12 := true } : Mmc3).a12 = true) ∧
    ((0x1000#14 : BitVec 14).getLsbD 12 = true ∧ r.a12 = false ∧
      ({ r with a12LowSince := 5 } : Mmc3).a12LowSince + 10 ≤ 15 ∧
      14 < ({ r with a12LowSince := 5 } : Mmc3).a12LowSince + 10) ∧
    ({ r with irqPending := true } : Mmc3).irqPending = true ∧
    (mmc3Banks.mapper = .mmc3 r ∧ r.irqPending = false) := by decide

/-- The sequence of states of a DMA exists from every state and page. -/
theorem witness_dma_states (s : State) (page : Byte) : ∃ m : Nat → State, m 0 = { s with busLast := page } ∧
    ∀ i, i < 256 → ∀ (b : Byte) (u : State), busRead (BitVec.ofNat 16 (256 * page.toNat + i)) (m i) = (b, u) →
      m (i + 1) = { u with ppu := { u.ppu with oam := u.ppu.oam.write ((u.ppu.oamaddr.toNat + i) % 256) b } } := by
  refine ⟨fun n => Nat.rec { s with busLast := page } (fun i t =>
    let r := busRead (BitVec.ofNat 16 (256 * page.toNat + i)) t
    { r.2 with ppu := { r.2.ppu with oam := r.2.ppu.oam.write ((r.2.ppu.oamaddr.toNat + i) % 256) r.1 } }) n, rfl, ?_⟩
  intro i _ b u h
  simp only [h]

/-- Both ends of every range of pages, PRG RAM readable and not. -/
theorem witness_OamDmaCopiesAPage :
    plain.ppu.oam.wf 256 = true ∧
      (∀ page ∈ [(0x00#8 : Byte), 0x1F#8, 0x80#8, 0xFF#8], page.toNat < 0x20 ∨ 0x80 ≤ page.toNat) ∧
      (∀ page ∈ [(0x60#8 : Byte), 0x7F#8], 0x60 ≤ page.toNat ∧ page.toNat < 0x80) ∧
      ((protect 0x80).mapper.ramReadable = true ∧ (protect 0x40).mapper.ramReadable = false) ∧
      ∀ page ∈ [(0x41#8 : Byte), 0x5F#8], 0x41 ≤ page.toNat ∧ page.toNat < 0x60 :=
  ⟨rfl, by simp, by simp, by decide, by simp⟩

/-- A read of each port with the strobe set and clear, under an open bus of $FF. -/
theorem witness_ControllerReadsGiveTheButtonsInOrder :
    let s : State := { plain with busLast := 0xFF#8, ctl0 := ⟨true, 0x00#8, 0x01#8⟩, ctl1 := ⟨false, 0x00#8, 0x01#8⟩ }
    (0xE1#8 : Byte).toNat = s.busLast.toNat / 32 * 32 + (if s.ctl0.strobe then s.ctl0.buttons else s.ctl0.shift).toNat % 2 ∧
    (0xE0#8 : Byte).toNat =
      s.busLast.toNat / 32 * 32 + (if s.ctl1.strobe then s.ctl1.buttons else s.ctl1.shift).toNat % 2 := by decide

/-- A state with every invariant, other than the one after power-on, from which a step is taken. -/
theorem witness_StepKeeps :
    ldaMachine.clockWf ∧ ldaMachine.positionWf ∧ ldaMachine.statusWf ∧ ldaMachine.memoryWf ∧ ldaMachine.colourWf ∧
      ldaMachine.deviceWf ∧ ldaMachine.mapperWf ∧ ∃ t, step ldaMachine = .next t :=
  ⟨rfl, ⟨by decide, by decide, by decide⟩, ⟨by decide, by decide⟩,
    ⟨by decide, by decide, by decide, by decide, by decide, by decide, by decide, by decide⟩,
    fun _ => ⟨(by decide : (0#8 : Byte).toNat < 64), (by decide : (0#8 : Byte).toNat < 64)⟩, ⟨rfl, by decide, by decide⟩, trivial, step_progress _ rfl rfl⟩


end Sys2Proof.Tests
end

section
/-! PROOFS. The mirrors of RAM and of the PPU registers, and PRG RAM behind its gates (spec/20_memory.md). -/

namespace Sys2Proof.Machine

/-! ### The address decode of the register window and of PRG RAM -/

/-- A read in the register window decodes the low three bits only (rules R62, R346). -/
theorem busRead_of_ppuReg {a : Addr} (hlo : 0x2000 ≤ a.toNat) (hhi : a.toNat < 0x4000) (s : State) :
    busRead a s = ((ppuRegRead (a.toNat % 8) s).1,
      { (ppuRegRead (a.toNat % 8) s).2 with busLast := (ppuRegRead (a.toNat % 8) s).1 }) := by
  simp [busRead, busReadRaw, Nat.not_lt.mpr hlo, hhi]

/-- A write in the register window drives the bus, then decodes the low three bits only (rules R63, R346). -/
theorem busWrite_of_ppuReg {a : Addr} (hlo : 0x2000 ≤ a.toNat) (hhi : a.toNat < 0x4000) (v : Byte) (s : State) :
    busWrite a v s = ppuRegWrite (a.toNat % 8) v { s with busLast := v } := by
  simp [busWrite, Nat.not_lt.mpr hlo, hhi]

/-- The byte read from $6000 to $7FFF: PRG RAM where the board lets it answer, else the open bus (rules R427, R457). -/
theorem busRead_of_prgRam {a : Addr} (hlo : 0x6000 ≤ a.toNat) (hhi : a.toNat < 0x8000) (s : State) :
    (busRead a s).1 = if s.mapper.ramReadable then s.cart.prgram.read (a.toNat - 0x6000) else s.busLast := by
  rw [busRead_of_cart (by omega)]
  simp [mapperCpuRead, Nat.not_lt.mpr hlo, hhi]

/-- A write to $6000 to $7FFF drives the bus, and stores in PRG RAM where the board lets it (rules R427, R457). -/
theorem busWrite_of_prgRam {a : Addr} (hlo : 0x6000 ≤ a.toNat) (hhi : a.toNat < 0x8000) (v : Byte) (s : State) :
    busWrite a v s = if s.mapper.ramWritable then
        { s with busLast := v, cart := { s.cart with prgram := s.cart.prgram.write (a.toNat - 0x6000) v } }
      else { s with busLast := v } := by
  have h1 : ¬ a.toNat < 0x2000 := by omega
  have h2 : ¬ a.toNat < 0x4000 := by omega
  have h3 : ¬ a.toNat < 0x4018 := by omega
  have h4 : ¬ a.toNat < 0x4020 := by omega
  have h5 : ¬ 0x8000 ≤ a.toNat := by omega
  simp only [busWrite, cartCpuWrite, mapperCpuWrite, h1, h2, h3, h4, h5, hlo, hhi, if_false, true_and]
  split <;> rfl

/-- A board that takes writes to PRG RAM answers its reads too (rule R457). -/
theorem Mapper.ramReadable_of_ramWritable {m : Mapper} (h : m.ramWritable = true) : m.ramReadable = true := by
  cases m with
  | nrom => rfl
  | mmc1 _ => rfl
  | mmc3 _ => exact (Bool.and_eq_true_iff.mp h).1

/-! ### RAM mirrors, register mirrors (rule R82) and PRG RAM read back (rules R427, R457) -/

/-- A byte written to RAM is read back through the mirrors of its cell and through no others. -/
theorem busRead_busWrite_ram {a b : Addr} (v : Byte) {s : State} (hwf : s.ram.wf 2048 = true) (ha : a.toNat < 0x2000)
    (hb : b.toNat < 0x2000) :
    (busRead b (busWrite a v s)).1 = if a.toNat % 2048 = b.toNat % 2048 then v else (busRead b s).1 := by
  rw [busWrite_of_ram ha, busRead_of_ram hb, busRead_of_ram hb]
  change (s.ram.write (a.toNat % 2048) v).read (b.toNat % 2048) = _
  split
  · next hcell => rw [← hcell, Memory.wf_read_write _ v hwf]
  · next hcell => exact Memory.read_write_other _ _ _ v (Ne.symm hcell)

/-- Accesses in the register window whose addresses agree in the low three bits are the same operation. -/
theorem bus_eq_of_sameRegister {a b : Addr} (ha : 0x2000 ≤ a.toNat ∧ a.toNat < 0x4000)
    (hb : 0x2000 ≤ b.toNat ∧ b.toNat < 0x4000) (hab : a.toNat % 8 = b.toNat % 8) (v : Byte) (s : State) :
    busRead a s = busRead b s ∧ busWrite a v s = busWrite b v s := by
  rw [busRead_of_ppuReg ha.1 ha.2, busRead_of_ppuReg hb.1 hb.2, busWrite_of_ppuReg ha.1 ha.2,
    busWrite_of_ppuReg hb.1 hb.2, hab]
  exact ⟨rfl, rfl⟩

/-- What a read of PRG RAM gives after a write to it: with reads gated off the byte that the write left on the bus, else
the stored byte, which is the new one at the written address alone and only where the board takes writes. -/
theorem busRead_busWrite_prgRam {a b : Addr} (v : Byte) {s : State} (hwf : s.cart.prgram.wf 8192 = true)
    (ha : 0x6000 ≤ a.toNat ∧ a.toNat < 0x8000) (hb : 0x6000 ≤ b.toNat ∧ b.toNat < 0x8000) :
    (busRead b (busWrite a v s)).1 =
      if s.mapper.ramReadable = false ∨ (a = b ∧ s.mapper.ramWritable = true) then v
      else s.cart.prgram.read (b.toNat - 0x6000) := by
  rw [busWrite_of_prgRam ha.1 ha.2, busRead_of_prgRam hb.1 hb.2]
  by_cases hw : s.mapper.ramWritable = true
  · have hr := Mapper.ramReadable_of_ramWritable hw
    by_cases hab : a = b
    · subst hab
      simp [hw, hr, Memory.wf_read_write _ v hwf]
    · have hne : b.toNat - 0x6000 ≠ a.toNat - 0x6000 := by
        have : a.toNat ≠ b.toNat := fun h => hab (BitVec.eq_of_toNat_eq h)
        omega
      simp [hw, hr, hab, Memory.read_write_other _ _ _ v hne]
  · cases hr : s.mapper.ramReadable <;> simp [hw, hr]

/-- Settles O37: the RAM clause by the cell that two mirrors share, the register clause by the low three bits, the PRG RAM
clause by the gates of the board, which the statement spells out board by board. -/
theorem mirrorsAreTheSameCellsAndRegisters : Obligations.MirrorsAreTheSameCellsAndRegisters := by
  intro a b v s
  refine ⟨busRead_busWrite_ram v, fun hlo hhi => ?_, fun hlo hhi readable writable hr hw => ?_⟩
  · have hreg : (BitVec.ofNat 16 (0x2000 + a.toNat % 8)).toNat = 0x2000 + a.toNat % 8 :=
      Nat.mod_eq_of_lt (by omega)
    exact bus_eq_of_sameRegister ⟨hlo, hhi⟩ (by omega) (by omega) v s
  · have hreadable : readable = s.mapper.ramReadable := hr.trans (by cases s.mapper <;> rfl)
    have hwritable : writable = s.mapper.ramWritable := hw.trans (by cases s.mapper <;> rfl)
    subst hreadable hwritable
    exact ⟨busWrite_of_prgRam hlo hhi v s, fun hwf hblo hbhi => busRead_busWrite_prgRam v hwf ⟨hlo, hhi⟩ ⟨hblo, hbhi⟩⟩

end Sys2Proof.Machine
end

section
/-! PROOFS. Decoding is total and inverts `encode` (spec/30_encoding.md rules R100 to R103), and the opcodes
that the policy for the unstable ones governs (rules R107, R270 to R278). -/

namespace Sys2Proof

/-! ### The decode table, column by column -/

/-- The operand that the bytes after the opcode make in a format (rule R101); a byte that the format has no place for is
not looked at. -/
def Mode.operandOf : Mode → Byte → Byte → Operand
  | .implied, _, _ => .implied
  | .accumulator, _, _ => .accumulator
  | .immediate, b, _ => .immediate b
  | .zeropage, b, _ => .mem (.zeropage b)
  | .zeropageX, b, _ => .mem (.zeropageX b)
  | .zeropageY, b, _ => .mem (.zeropageY b)
  | .absolute, b, c => .mem (.absolute (wordOf c b))
  | .absoluteX, b, c => .mem (.absoluteX (wordOf c b))
  | .absoluteY, b, c => .mem (.absoluteY (wordOf c b))
  | .indirectX, b, _ => .mem (.indirectX b)
  | .indirectY, b, _ => .mem (.indirectY b)
  | .relative, b, _ => .relative b
  | .indirect, b, c => .indirect (wordOf c b)

/-- The operand bytes have no part in the opcode of a table entry. -/
theorem decodeTable_opcodes (b c : Byte) :
    decodeTable.map (fun make => (make b c).opcode) = decodeTable.map (fun make => (make 0#8 0#8).opcode) := by
  simp only [decodeTable, List.map_append]
  rfl

/-- Each entry of the decode table makes the operand of its row's format. -/
theorem decodeTable_operands (b c : Byte) :
    decodeTable.map (fun make => (make b c).operand) = rowTable.map (fun row => row.mode.operandOf b c) := by
  simp only [decodeTable, rowTable, List.map_append]
  rfl

/-- A property of decoded instructions, read off the table entry by entry. -/
theorem apply_decodeOp {α : Type} (g : Instr → α) (op b c : Byte) :
    g (decodeOp op b c) = (decodeTable.map fun make => g (make b c)).getD op.toNat (g .nop) :=
  (List.getD_map _ _ fun make : Byte → Byte → Instr => g (make b c)).symm

theorem opcode_decodeOp (op b c : Byte) : (decodeOp op b c).opcode = op := by
  have hblank : ∀ op : Byte, (decodeOp op 0#8 0#8).opcode = op := by decide
  rw [apply_decodeOp Instr.opcode, decodeTable_opcodes, ← apply_decodeOp Instr.opcode, hblank]

theorem operand_decodeOp (op b c : Byte) : (decodeOp op b c).operand = (decodeRow op).mode.operandOf b c := by
  rw [apply_decodeOp Instr.operand, decodeTable_operands]
  exact List.getD_map _ ⟨.NOP, .implied, 2, false, false, .official⟩ fun row : Row => row.mode.operandOf b c

/-- An operand is written as the bytes it was made of, as many of them as its format has (rules R101, R103). -/
theorem bytes_operandOf (m : Mode) (b c : Byte) : (m.operandOf b c).bytes = [b, c].take (m.bytes - 1) := by
  cases m <;> simp [Mode.operandOf, Operand.bytes, MemOperand.bytes, Mode.bytes, loByte_wordOf, hiByte_wordOf]

/-- An instruction that the table makes is written as its opcode and the operand bytes it was made of. -/
theorem encode_decodeOp (op b c : Byte) :
    encode (decodeOp op b c) = op :: [b, c].take ((decodeRow op).mode.bytes - 1) := by
  rw [encode, opcode_decodeOp, operand_decodeOp, bytes_operandOf]

/-! ### Decoding a byte list, by the length that the opcode gives -/

theorem Mode.bytes_mem (m : Mode) : m.bytes ∈ [1, 2, 3] := by
  cases m <;> decide

/-- A list that decodes begins with the operand bytes of the instruction it decodes to. -/
theorem exists_decodeOp_of_decode {op : Byte} {l rest : List Byte} {i : Instr}
    (h : decode (op :: l) = .ok (i, rest)) :
    ∃ b c, i = decodeOp op b c ∧ l = [b, c].take ((decodeRow op).mode.bytes - 1) ++ rest := by
  unfold decode at h
  dsimp only at h
  split at h <;> cases h
  all_goals
    next hn => exact ⟨_, _, rfl, by simp [hn]⟩

/-- What decodes is exactly the bytes that `encode` writes, and keeps the opcode byte. -/
theorem eq_encode_append_of_decode {op : Byte} {l rest : List Byte} {i : Instr} (h : decode (op :: l) = .ok (i, rest)) :
    op :: l = encode i ++ rest ∧ i.opcode = op := by
  obtain ⟨b, c, rfl, rfl⟩ := exists_decodeOp_of_decode h
  rw [encode_decodeOp]
  exact ⟨rfl, opcode_decodeOp op b c⟩

/-- No opcode is reserved (rule R102): a list with the operand bytes that the opcode's format has decodes. -/
theorem exists_decode_of_long {op : Byte} {l : List Byte} (h : (decodeRow op).mode.bytes ≤ l.length + 1) :
    ∃ i rest, decode (op :: l) = .ok (i, rest) := by
  have hmem := (decodeRow op).mode.bytes_mem
  simp only [List.mem_cons, List.not_mem_nil, or_false] at hmem
  obtain hn | hn | hn := hmem <;> rw [hn] at h
  · exact ⟨decodeOp op 0#8 0#8, l, by simp [decode, hn]⟩
  · obtain _ | ⟨b, rest⟩ := l
    · simp at h
    · exact ⟨decodeOp op b 0#8, rest, by simp [decode, hn]⟩
  · obtain _ | ⟨b, _ | ⟨c, rest⟩⟩ := l
    · simp at h
    · simp at h
    · exact ⟨decodeOp op b c, rest, by simp [decode, hn]⟩

/-- Settles O3: what decodes is an instruction of the decode table, which `encode` writes back byte by byte; that its
length is the format's is a fact of every instruction. -/
theorem decodingIsTotalAndExact : Obligations.DecodingIsTotalAndExact := by
  intro op l
  refine ⟨⟨exists_decode_of_long, ?_⟩, ?_⟩
  · rintro ⟨i, rest, h⟩
    obtain ⟨hl, rfl⟩ := eq_encode_append_of_decode h
    obtain ⟨-, hlen, -⟩ := Laws.rowShape i
    calc i.row.mode.bytes
      _ ≤ (encode i ++ rest).length := by simp [hlen]
      _ = l.length + 1 := by simp [← hl]
  · intro i rest h
    obtain ⟨hl, rfl⟩ := eq_encode_append_of_decode h
    obtain ⟨hmode, hlen, -⟩ := Laws.rowShape i
    exact ⟨hl, rfl, rfl, hmode, hlen, hlen ▸ Mode.bytes_mem _⟩

end Sys2Proof

namespace Sys2Proof.Machine

/-! ### The opcodes of classes (b) and (c) (rules R107, R270 to R278) -/

theorem unstable_of_nop (kind : Mnemonic) (base : Nat) {s : State} (h : s.params.unstablePolicy = .nop) :
    unstable kind base s = .next { s with cyc := s.cyc + base } := by
  rw [unstable, h]
  rfl

theorem unstable_of_refuse (kind : Mnemonic) (base : Nat) {s : State} (h : s.params.unstablePolicy = .refuse) :
    unstable kind base s = .refused (.unstableOpcode kind) := by
  rw [unstable, h]

/-- The opcodes of rules R271 to R278, one by one: the format is their form's, and the meaning is `unstable` at their
form's baseline cost. -/
theorem exec_decodeOp_of_unstableForm : ∀ r ∈ [271, 272, 273, 274, 275, 276, 277, 278], ∀ f ∈ formsOfRule r,
    ∀ (b c : Byte) (s : State), (decodeOp f.opcode b c).operand.mode = f.mode ∧
      exec (decodeOp f.opcode b c) s = unstable (decodeOp f.opcode b c).row.kind f.cycles s := by
  simp only [List.forall_mem_cons, formsOfRule, List.not_mem_nil, false_implies, implies_true, and_true]
  repeat' apply And.intro
  all_goals exact fun _ _ _ => ⟨rfl, rfl⟩

/-- Settles O31: every one of these opcodes has the meaning `unstable`, which is the policy. -/
theorem unstableOpcodesFollowThePolicy : Obligations.UnstableOpcodesFollowThePolicy := by
  intro r hr f hf i s hi
  obtain ⟨b, c, rfl⟩ := eq_decodeOp hi
  obtain ⟨hmode, hexec⟩ := exec_decodeOp_of_unstableForm r hr f hf b c s
  rw [hexec]
  exact ⟨hmode, unstable_of_nop _ _, unstable_of_refuse _ _⟩

end Sys2Proof.Machine
end

section
/-! PROOFS. The loads, the stores, the transfers and the register counts (spec/41_load_store_transfer.md rules R150 to R161,
44_inc_dec_shift.md rules R202 to R205, 47_unofficial.md rules R255, R256). -/

namespace Sys2Proof.Machine

/-! ### The shape of the meaning that each form of a rule has (rule R130) -/

/-- A meaning of the read class, or of the immediate form of it (rules R130, R133), by the operand. -/
def IsReadMeaning (base : Nat) (adder : Bool) (f : Byte → Cpu → Cpu) (o : Operand) (meaning : State → Result) : Prop :=
  match o with
  | .mem m => meaning = readMem base adder m f
  | .immediate v => meaning = immediate base v f
  | _ => False

/-- Every form listed decodes in its mode, to a meaning that reads its operand byte and applies `f`. -/
def FormsRead (forms : List Form) (f : Byte → Cpu → Cpu) : Prop :=
  ∀ form ∈ forms, ∀ b c, (decodeOp form.opcode b c).operand.mode = form.mode ∧
    IsReadMeaning form.cycles form.adder f (decodeOp form.opcode b c).operand (exec (decodeOp form.opcode b c))

/-- Every form listed decodes in its mode, to a meaning that writes the byte `v` gives. -/
def FormsStore (forms : List Form) (v : Cpu → Byte) : Prop :=
  ∀ form ∈ forms, ∀ b c, (decodeOp form.opcode b c).operand.mode = form.mode ∧
    ∃ m, (decodeOp form.opcode b c).operand = .mem m ∧ exec (decodeOp form.opcode b c) = writeMem form.cycles m v

/-- Every form listed decodes in its mode, to a meaning that applies `f` to the registers and accesses nothing. -/
def FormsAct (forms : List Form) (f : Cpu → Cpu) : Prop :=
  ∀ form ∈ forms, ∀ b c, (decodeOp form.opcode b c).operand.mode = form.mode ∧
    exec (decodeOp form.opcode b c) = implied form.cycles f

theorem readsAs_of_formsRead {l : List Form} {f g : Byte → Cpu → Cpu} (hfg : ∀ v c, f v c = g v c)
    (hl : FormsRead l f) : ReadsAs l g := by
  refine readsAs_of hfg fun form hform b c s => ?_
  obtain ⟨hmode, hread⟩ := hl form hform b c
  refine ⟨hmode, ?_⟩
  generalize (decodeOp form.opcode b c).operand = o at hread
  cases o with
  | mem m => exact .inl ⟨m, rfl, congrFun hread s⟩
  | immediate v => exact .inr ⟨v, rfl, congrFun hread s⟩
  | _ => exact hread.elim

theorem storesAs_of_formsStore {l : List Form} {v : Cpu → Byte} (hl : FormsStore l v) : StoresAs l v := by
  refine storesAs_of (fun _ => rfl) fun form hform b c s => ?_
  obtain ⟨hmode, m, hm, hexec⟩ := hl form hform b c
  exact ⟨hmode, m, hm, congrFun hexec s⟩

theorem actsAs_of_formsAct {l : List Form} {f g : Cpu → Cpu} (hfg : ∀ c, f c = g c) (hl : FormsAct l f) : ActsAs l g := by
  refine actsAs_of hfg fun form hform b c s => ?_
  obtain ⟨hmode, hexec⟩ := hl form hform b c
  exact ⟨hmode, congrFun hexec s⟩

/-! ### The opcodes of these rules, read off the opcode table (rule R106) one by one -/

theorem formsRead_loads : FormsRead (formsOfRule 150) loadA ∧ FormsRead (formsOfRule 151) loadX ∧
    FormsRead (formsOfRule 152) loadY ∧ FormsRead (formsOfRule 255) loadAX := by
  simp only [FormsRead, formsOfRule, List.forall_mem_cons, List.not_mem_nil, false_implies, implies_true, and_true]
  repeat' apply And.intro
  all_goals exact fun _ _ => ⟨rfl, rfl⟩

theorem formsStore_stores : FormsStore (formsOfRule 153) (fun c => c.a) ∧ FormsStore (formsOfRule 154) (fun c => c.x) ∧
    FormsStore (formsOfRule 155) (fun c => c.y) ∧ FormsStore (formsOfRule 256) (fun c => c.a &&& c.x) := by
  simp only [FormsStore, formsOfRule, List.forall_mem_cons, List.not_mem_nil, false_implies, implies_true, and_true]
  repeat' apply And.intro
  all_goals exact fun _ _ => ⟨rfl, _, rfl, rfl⟩

theorem formsAct_transfers_and_counts :
    FormsAct (formsOfRule 156) (fun c => loadX c.a c) ∧ FormsAct (formsOfRule 157) (fun c => loadY c.a c) ∧
    FormsAct (formsOfRule 158) (fun c => loadA c.x c) ∧ FormsAct (formsOfRule 159) (fun c => loadA c.y c) ∧
    FormsAct (formsOfRule 160) (fun c => loadX c.sp c) ∧ FormsAct (formsOfRule 161) (fun c => { c with sp := c.x }) ∧
    FormsAct (formsOfRule 202) (fun c => loadX (c.x + 1#8) c) ∧
    FormsAct (formsOfRule 203) (fun c => loadY (c.y + 1#8) c) ∧
    FormsAct (formsOfRule 204) (fun c => loadX (c.x - 1#8) c) ∧
    FormsAct (formsOfRule 205) (fun c => loadY (c.y - 1#8) c) := by
  simp only [FormsAct, formsOfRule, List.forall_mem_cons, List.not_mem_nil, false_implies, implies_true, and_true]
  repeat' apply And.intro
  all_goals exact fun _ _ => ⟨rfl, rfl⟩

/-! ### The obligations -/

/-- Settles O19: each load's forms are of the read class, and what the load does to the registers is N, Z as a mask. -/
theorem loadInstructions : Obligations.LoadInstructions := by
  obtain ⟨hlda, hldx, hldy, hlax⟩ := formsRead_loads
  exact ⟨readsAs_of_formsRead loadA_eq hlda, readsAs_of_formsRead loadX_eq hldx, readsAs_of_formsRead loadY_eq hldy,
    readsAs_of_formsRead loadAX_eq hlax⟩

/-- Settles O23: each store's forms are of the write class, whose meaning is one bus write. -/
theorem storeInstructions : Obligations.StoreInstructions := by
  obtain ⟨hsta, hstx, hsty, hsax⟩ := formsStore_stores
  exact ⟨storesAs_of_formsStore hsta, storesAs_of_formsStore hstx, storesAs_of_formsStore hsty,
    storesAs_of_formsStore hsax⟩

/-- Settles O26: each of these loads a register with a value computed from the registers, and TXS (rule R161) copies X to
SP without touching a flag. -/
theorem transfersAndRegisterCounts : Obligations.TransfersAndRegisterCounts := by
  obtain ⟨htax, htay, htxa, htya, htsx, htxs, hinx, hiny, hdex, hdey⟩ := formsAct_transfers_and_counts
  exact ⟨actsAs_of_formsAct (fun _ => loadX_eq _ _) htax, actsAs_of_formsAct (fun _ => loadY_eq _ _) htay,
    actsAs_of_formsAct (fun _ => loadA_eq _ _) htxa, actsAs_of_formsAct (fun _ => loadA_eq _ _) htya,
    actsAs_of_formsAct (fun _ => loadX_eq _ _) htsx, actsAs_of_formsAct (fun _ => rfl) htxs,
    actsAs_of_formsAct (fun _ => loadX_eq _ _) hinx, actsAs_of_formsAct (fun _ => loadY_eq _ _) hiny,
    actsAs_of_formsAct (fun _ => loadX_eq _ _) hdex, actsAs_of_formsAct (fun _ => loadY_eq _ _) hdey⟩

end Sys2Proof.Machine
end

section
/-! PROOFS. The stack instructions (spec/42_stack.md rules R170 to R173). -/

namespace Sys2Proof.Machine

/-! ### The two shapes of meaning these instructions have: the stack is RAM (rule R21), so each is one access to page 1 -/

/-- A meaning that pushes `v`, in full. -/
theorem next_push_eq (base : Nat) (v : Byte) (s : State) : (.next ((push v s).charge base) : Result) =
    .next { s with cpu := { s.cpu with sp := s.cpu.sp - 1#8 }, ram := stackStore s.cpu.sp v s.ram,
                   busLast := v, cyc := s.cyc + base } := by
  rw [push_eq]
  rfl

/-- A meaning that pulls a byte and applies `f` to it and the registers, in full: `f` sees SP already raised. -/
theorem next_pull_eq (base : Nat) (f : Byte → Cpu → Cpu) (s : State) :
    (.next (((pull s).2.mapCpu (f (pull s).1)).charge base) : Result) =
      .next { s with cpu := f (s.stackByte (s.cpu.sp + 1#8)) { s.cpu with sp := s.cpu.sp + 1#8 },
                     busLast := s.stackByte (s.cpu.sp + 1#8), cyc := s.cyc + base } := by
  rw [pull_eq]
  rfl

/-- Settles O30: PHA pushes A and PHP pushes P with B and U set; PLA pulls into A, and PLP into P, which bits 4 and 5 of
the byte pulled do not reach. -/
theorem pushAndPullInstructions : Obligations.PushAndPullInstructions := by
  intro s
  have hpha := next_push_eq 3 s.cpu.a s
  have hphp := next_push_eq 3 (pushedByBrk s.cpu.p) s
  have hpla := next_pull_eq 4 loadA s
  rw [loadA_eq] at hpla
  have hplp := next_pull_eq 4 (fun v c => { c with p := pulledStatus v }) s
  refine ⟨rfl, rfl, rfl, rfl, hpha, hphp, ?_⟩
  rintro v rfl
  exact ⟨hpla, hplp⟩

end Sys2Proof.Machine
end

section
/-! PROOFS. Logic, arithmetic and comparison (spec/43_logic_arith.md rules R180 to R188, 47_unofficial.md rule R257). -/

namespace Sys2Proof.Machine

/-! ### The opcodes of these rules, read off the opcode table (rule R106) one by one -/

theorem formsRead_logic_arithmetic :
    FormsRead (formsOfRule 180) andA ∧ FormsRead (formsOfRule 181) oraA ∧ FormsRead (formsOfRule 182) eorA ∧
    FormsRead (formsOfRule 183) bitA ∧ FormsRead (formsOfRule 184) adc ∧ FormsRead (formsOfRule 185) sbc ∧
    FormsRead (formsOfRule 257) sbc ∧ FormsRead (formsOfRule 186) cmpA ∧ FormsRead (formsOfRule 187) cmpX ∧
    FormsRead (formsOfRule 188) cmpY := by
  simp only [FormsRead, formsOfRule, List.forall_mem_cons, List.not_mem_nil, false_implies, implies_true, and_true]
  repeat' apply And.intro
  all_goals exact fun _ _ => ⟨rfl, rfl⟩

/-! ### The obligations -/

/-- Settles O20: AND, ORA and EOR load A with the result (rules R180 to R182), and BIT's three flags are one mask. -/
theorem logicInstructions : Obligations.LogicInstructions := by
  obtain ⟨hand, hora, heor, hbit, -⟩ := formsRead_logic_arithmetic
  exact ⟨readsAs_of_formsRead (fun v c => loadA_eq (c.a &&& v) c) hand,
    readsAs_of_formsRead (fun v c => loadA_eq (c.a ||| v) c) hora,
    readsAs_of_formsRead (fun v c => loadA_eq (c.a ^^^ v) c) heor,
    readsAs_of_formsRead bitA_eq hbit⟩

/-- Settles O21: the adder is the sum of numbers (`add_eq`), SBC adds the complement, which is the difference with an
inverted borrow (`sbc_eq`), and each comparison is `compare_eq` of its register. -/
theorem arithmeticAndCompareInstructions : Obligations.ArithmeticAndCompareInstructions := by
  obtain ⟨-, -, -, -, hadc, hsbc, hsbcEB, hcmp, hcpx, hcpy⟩ := formsRead_logic_arithmetic
  exact ⟨readsAs_of_formsRead add_eq hadc, readsAs_of_formsRead sbc_eq hsbc, readsAs_of_formsRead sbc_eq hsbcEB,
    readsAs_of_formsRead (fun v c => compare_eq c.a v c) hcmp,
    readsAs_of_formsRead (fun v c => compare_eq c.x v c) hcpx,
    readsAs_of_formsRead (fun v c => compare_eq c.y v c) hcpy⟩

end Sys2Proof.Machine
end

section
/-! PROOFS. Increments, decrements, shifts and rotates (spec/44_inc_dec_shift.md rules R200, R201, R206 to R209). -/

namespace Sys2Proof.Machine

/-! ### The shape of the meaning that each form of a rule has: on memory (rule R130) and on A (rule R132) -/

/-- Every memory form listed decodes in its mode, to a meaning that rewrites one byte with `op` and then applies `post`. -/
def FormsModify (forms : List Form) (op : Byte → Cpu → Byte × Cpu) (post : Byte → Cpu → Cpu) : Prop :=
  ∀ form ∈ forms, form.mode ≠ .accumulator → ∀ b c, (decodeOp form.opcode b c).operand.mode = form.mode ∧
    ∃ m, (decodeOp form.opcode b c).operand = .mem m ∧
      exec (decodeOp form.opcode b c) = modifyMem form.cycles m op post

/-- Every accumulator form among those listed decodes in its mode, to a meaning that rewrites A with `op`. -/
def FormsModifyAcc (forms : List Form) (op : Byte → Cpu → Byte × Cpu) : Prop :=
  ∀ form ∈ forms, form.mode = .accumulator → ∀ b c, (decodeOp form.opcode b c).operand.mode = form.mode ∧
    exec (decodeOp form.opcode b c) = modifyAcc form.cycles op

theorem modifiesAs_of_formsModify {l : List Form} {op : Byte → Cpu → Byte × Cpu} {op' : Byte → Byte → Byte × Bool}
    {post post' : Byte → Cpu → Cpu} (hop : ∀ m c, op m c = ((op' m c.p).1, { c with p := withC (op' m c.p).2 c.p }))
    (hpost : ∀ r c, post r c = post' r c) (hl : FormsModify l op post) : ModifiesAs l op' post' := by
  refine modifiesAs_of hop hpost fun form hform hmem b c s => ?_
  obtain ⟨hmode, m, hm, hexec⟩ := hl form hform hmem b c
  exact ⟨hmode, m, hm, congrFun hexec s⟩

theorem actsAs_of_formsModifyAcc {l : List Form} {op : Byte → Cpu → Byte × Cpu} {op' : Byte → Byte → Byte × Bool}
    (hop : ∀ m c, op m c = ((op' m c.p).1, { c with p := withC (op' m c.p).2 c.p })) (hl : FormsModifyAcc l op) :
    ActsAs (l.filter fun f => f.mode = .accumulator) (fun c =>
      { c with a := (op' c.a c.p).1, p := withNZ (op' c.a c.p).1 (withC (op' c.a c.p).2 c.p) }) := by
  have hacc : ∀ c : Cpu, loadA (op c.a c).1 (op c.a c).2 =
      { c with a := (op' c.a c.p).1, p := withNZ (op' c.a c.p).1 (withC (op' c.a c.p).2 c.p) } := by
    intro c
    rw [hop, loadA_eq]
  refine actsAs_of_formsAct hacc fun form hform => ?_
  obtain ⟨hmem, hmode⟩ := List.mem_filter.mp hform
  exact hl form hmem (of_decide_eq_true hmode)

/-! ### The opcodes of these rules, read off the opcode table (rule R106) one by one -/

theorem formsModify_increments_shifts_rotates :
    FormsModify (formsOfRule 200) incByte setNZ ∧ FormsModify (formsOfRule 201) decByte setNZ ∧
    FormsModify (formsOfRule 206) aslByte setNZ ∧ FormsModify (formsOfRule 207) lsrByte setNZ ∧
    FormsModify (formsOfRule 208) rolByte setNZ ∧ FormsModify (formsOfRule 209) rorByte setNZ := by
  simp only [FormsModify, formsOfRule, List.forall_mem_cons, List.not_mem_nil, false_implies, implies_true, and_true,
    ne_eq, reduceCtorEq, not_true_eq_false, not_false_eq_true, forall_const, true_and]
  repeat' apply And.intro
  all_goals exact fun _ _ => ⟨rfl, _, rfl, rfl⟩

theorem formsModifyAcc_shifts_rotates :
    FormsModifyAcc (formsOfRule 206) aslByte ∧ FormsModifyAcc (formsOfRule 207) lsrByte ∧
    FormsModifyAcc (formsOfRule 208) rolByte ∧ FormsModifyAcc (formsOfRule 209) rorByte := by
  simp only [FormsModifyAcc, formsOfRule, List.forall_mem_cons, List.not_mem_nil, false_implies, implies_true, and_true,
    reduceCtorEq, forall_const, true_and]
  repeat' apply And.intro
  all_goals exact fun _ _ => ⟨rfl, rfl⟩

/-! ### The obligation -/

/-- Settles O24: the byte operation of each rule is its arithmetic on numbers (`incByte_eq` to `rorByte_eq`), and a shift or
rotate applies the same one to memory and to A. -/
theorem incrementsShiftsAndRotates : Obligations.IncrementsShiftsAndRotates := by
  obtain ⟨hinc, hdec, hasl, hlsr, hrol, hror⟩ := formsModify_increments_shifts_rotates
  obtain ⟨haslA, hlsrA, hrolA, hrorA⟩ := formsModifyAcc_shifts_rotates
  refine ⟨modifiesAs_of_formsModify incByte_eq setNZ_eq hinc, modifiesAs_of_formsModify decByte_eq setNZ_eq hdec, ?_⟩
  simp only [List.forall_mem_cons, List.not_mem_nil, false_implies, implies_true, and_true]
  exact ⟨⟨modifiesAs_of_formsModify aslByte_eq setNZ_eq hasl, actsAs_of_formsModifyAcc aslByte_eq haslA⟩,
    ⟨modifiesAs_of_formsModify lsrByte_eq setNZ_eq hlsr, actsAs_of_formsModifyAcc lsrByte_eq hlsrA⟩,
    ⟨modifiesAs_of_formsModify rolByte_eq setNZ_eq hrol, actsAs_of_formsModifyAcc rolByte_eq hrolA⟩,
    ⟨modifiesAs_of_formsModify rorByte_eq setNZ_eq hror, actsAs_of_formsModifyAcc rorByte_eq hrorA⟩⟩

end Sys2Proof.Machine
end

section
/-! PROOFS. Control transfer: the eight branches, the jumps, the call and the return (spec/45_control.md rules R220 to
R232). -/

namespace Sys2Proof

/-! ### The halves of a 16-bit value, as numbers (rule R11) -/

theorem wordOf_toNat (hi lo : Byte) : (wordOf hi lo).toNat = 256 * hi.toNat + lo.toNat := by
  rw [wordOf, BitVec.toNat_append, ← Nat.shiftLeft_add_eq_or_of_lt lo.isLt, Nat.shiftLeft_eq, Nat.mul_comm]

theorem hiByte_toNat (w : Addr) : (hiByte w).toNat = w.toNat / 256 := by
  have hw := w.isLt
  rw [hiByte, BitVec.extractLsb'_toNat, Nat.shiftRight_eq_div_pow]
  omega

theorem loByte_toNat (w : Addr) : (loByte w).toNat = w.toNat % 256 := by
  rw [loByte, BitVec.extractLsb'_toNat, Nat.shiftRight_zero]

end Sys2Proof

namespace Sys2Proof.Machine

/-! ### The eight branches share one meaning (rule R224) -/

/-- The page test of a taken branch, on the high bytes of the target and of the following instruction's address. -/
theorem takenCost_eq (target next : Addr) :
    takenCost target next = 3 + (if hiByte target = hiByte next then 0 else 1) := by
  unfold takenCost pageCross page
  split
  · next h => rw [h, bne_self_eq_false]; rfl
  · next h => rw [bne_iff_ne.mpr h]; rfl

theorem branch_taken {cond : Cpu → Bool} (d : Byte) {s : State} (h : cond s.cpu = true) :
    branch cond d s = .next
      { s with cpu := { s.cpu with pc := s.cpu.pc + d.signExtend 16 },
               cyc := s.cyc + 3 + (if hiByte (s.cpu.pc + d.signExtend 16) = hiByte s.cpu.pc then 0 else 1) } := by
  simp only [branch, if_pos h, takenCost_eq, Nat.add_assoc]
  rfl

theorem branch_notTaken {cond : Cpu → Bool} (d : Byte) {s : State} (h : ¬ cond s.cpu = true) :
    branch cond d s = .next { s with cyc := s.cyc + 2 } := by
  rw [branch, if_neg h]
  rfl

/-- Every form listed decodes to a branch on `cond` of P, by its one operand byte. -/
def FormsBranch (forms : List Form) (cond : Byte → Bool) : Prop :=
  ∀ form ∈ forms, ∀ b c, (decodeOp form.opcode b c).operand = .relative b ∧
    exec (decodeOp form.opcode b c) = branch (fun r => cond r.p) b

theorem branchesOn_of_formsBranch {l : List Form} {cond : Byte → Bool} (hl : FormsBranch l cond) :
    BranchesOn l cond := by
  intro form hform i s hi
  obtain ⟨b, c, rfl⟩ := eq_decodeOp hi
  obtain ⟨hoperand, hexec⟩ := hl form hform b c
  refine ⟨b, hoperand, ?_⟩
  rw [hexec]
  dsimp only
  split
  · next h => exact branch_taken b h
  · next h => exact branch_notTaken b h

/-- The opcodes of the branches, read off the opcode table (rule R106) one by one. -/
theorem formsBranch_branches :
    FormsBranch (formsOfRule 225) (fun p => !getFlag p .C) ∧ FormsBranch (formsOfRule 226) (fun p => getFlag p .C) ∧
    FormsBranch (formsOfRule 227) (fun p => getFlag p .Z) ∧ FormsBranch (formsOfRule 228) (fun p => !getFlag p .Z) ∧
    FormsBranch (formsOfRule 229) (fun p => getFlag p .N) ∧ FormsBranch (formsOfRule 230) (fun p => !getFlag p .N) ∧
    FormsBranch (formsOfRule 231) (fun p => !getFlag p .V) ∧ FormsBranch (formsOfRule 232) (fun p => getFlag p .V) := by
  simp only [FormsBranch, formsOfRule, List.forall_mem_cons, List.not_mem_nil, false_implies, implies_true, and_true]
  repeat' apply And.intro
  all_goals exact fun _ _ => ⟨rfl, rfl⟩

/-- Settles O28: each branch has the common meaning, which is taken or not by one flag. -/
theorem branchInstructions : Obligations.BranchInstructions := by
  obtain ⟨hbcc, hbcs, hbeq, hbne, hbmi, hbpl, hbvc, hbvs⟩ := formsBranch_branches
  exact ⟨branchesOn_of_formsBranch hbcc, branchesOn_of_formsBranch hbcs, branchesOn_of_formsBranch hbeq,
    branchesOn_of_formsBranch hbne, branchesOn_of_formsBranch hbmi, branchesOn_of_formsBranch hbpl,
    branchesOn_of_formsBranch hbvc, branchesOn_of_formsBranch hbvs⟩

/-! ### Two bytes on the stack (rule R21), and the two bytes of a pointer (rule R143) -/

/-- A push of two bytes, in full: the high byte at SP, the low byte below it. -/
theorem push16_eq (w : Addr) (s : State) : push16 w s =
    { s with cpu := { s.cpu with sp := s.cpu.sp - 2#8 }, busLast := loByte w,
             ram := stackStore (s.cpu.sp - 1#8) (loByte w) (stackStore s.cpu.sp (hiByte w) s.ram) } := by
  simp only [push16, push_eq, stackStore, BitVec.sub_sub]
  rfl

/-- A pull of two bytes, in full: the low byte is the first above SP. -/
theorem pull16_eq (s : State) : pull16 s =
    (wordOf (s.stackByte (s.cpu.sp + 2#8)) (s.stackByte (s.cpu.sp + 1#8)),
      { s with cpu := { s.cpu with sp := s.cpu.sp + 2#8 }, busLast := s.stackByte (s.cpu.sp + 2#8) }) := by
  simp only [pull16, pull_eq, State.stackByte, BitVec.add_assoc]
  rfl

/-- Adding 1 to the low byte of a pointer alone stays in its page: at $FF it wraps to the start of the page. -/
theorem wordOf_hiByte_succ_loByte (a : Addr) :
    wordOf (hiByte a) (loByte a + 1#8) = BitVec.ofNat 16 (a.toNat / 256 * 256 + (a.toNat + 1) % 256) := by
  have ha := a.isLt
  apply BitVec.eq_of_toNat_eq
  rw [wordOf_toNat, hiByte_toNat, BitVec.toNat_add, loByte_toNat, BitVec.toNat_ofNat, BitVec.toNat_ofNat]
  omega

/-! ### The meanings in full -/

/-- JMP indirect, by its two reads (rule R221). -/
theorem execJmpInd_eq {a : Addr} {s t u : State} {lo hi : Byte} (hlo : busRead a s = (lo, t))
    (hhi : busRead (wordOf (hiByte a) (loByte a + 1#8)) t = (hi, u)) :
    execJmpInd a s = .next { u with cpu := { s.cpu with pc := wordOf hi lo }, cyc := s.cyc + 5 } := by
  have hu : u = (busRead16 a (wordOf (hiByte a) (loByte a + 1#8)) s).2 := by simp only [busRead16, hlo, hhi]
  have hcpu : u.cpu = s.cpu := by rw [hu, busRead16_cpu]
  have hcyc : u.cyc = s.cyc := by rw [hu, busRead16_cyc]
  simp only [execJmpInd, busRead16, hlo, hhi, State.mapCpu, State.charge, hcpu, hcyc]

/-- JSR (rule R222). -/
theorem execJsrAbs_eq (a : Addr) (s : State) : execJsrAbs a s = .next
    { s with
      cpu := { s.cpu with sp := s.cpu.sp - 2#8, pc := a }
      ram := stackStore (s.cpu.sp - 1#8) (loByte (s.cpu.pc - 1#16))
        (stackStore s.cpu.sp (hiByte (s.cpu.pc - 1#16)) s.ram)
      busLast := loByte (s.cpu.pc - 1#16)
      cyc := s.cyc + 6 } := by
  rw [execJsrAbs, push16_eq]
  rfl

/-- RTS (rule R223). -/
theorem execRts_eq (s : State) : execRts s = .next
    { s with
      cpu := { s.cpu with
        sp := s.cpu.sp + 2#8
        pc := wordOf (s.stackByte (s.cpu.sp + 2#8)) (s.stackByte (s.cpu.sp + 1#8)) + 1#16 }
      busLast := s.stackByte (s.cpu.sp + 2#8)
      cyc := s.cyc + 6 } := by
  rw [execRts, pull16_eq]
  rfl

/-- Settles O29: JSR and RTS are a push and a pull of two bytes, and the indirect jump's second read stays in the page
of the pointer (`wordOf_hiByte_succ_loByte`). -/
theorem jumpsCallsAndReturns : Obligations.JumpsCallsAndReturns := by
  intro a s
  refine ⟨rfl, rfl, rfl, rfl, rfl, ?_, execJsrAbs_eq a s, execRts_eq s⟩
  intro lo hi t u hlo hhi
  rw [← wordOf_hiByte_succ_loByte] at hhi
  exact execJmpInd_eq hlo hhi

end Sys2Proof.Machine
end

section
/-! PROOFS. The flag instructions and the NOPs (spec/46_flags_nop.md rules R240 to R247, 47_unofficial.md rules R251 to
R253). -/

namespace Sys2Proof.Machine

/-! ### Writing one flag, as a mask of P (rule R23) -/

theorem put_true_eq {f : Flag} {mask : Byte} (hmask : 1#8 <<< f.bit = mask) (c : Cpu) :
    c.put f true = { c with p := c.p ||| mask } := by
  rw [← hmask]
  rfl

theorem put_false_eq {f : Flag} {mask : Byte} (hmask : ~~~(1#8 <<< f.bit) = mask) (c : Cpu) :
    c.put f false = { c with p := c.p &&& mask } := by
  rw [← hmask]
  rfl

/-! ### The opcodes of these rules, read off the opcode table (rule R106) one by one -/

theorem formsAct_flags_and_nops :
    FormsAct (formsOfRule 240) (Cpu.put .C false) ∧ FormsAct (formsOfRule 241) (Cpu.put .C true) ∧
    FormsAct (formsOfRule 242) (Cpu.put .I false) ∧ FormsAct (formsOfRule 243) (Cpu.put .I true) ∧
    FormsAct (formsOfRule 244) (Cpu.put .V false) ∧ FormsAct (formsOfRule 245) (Cpu.put .D false) ∧
    FormsAct (formsOfRule 246) (Cpu.put .D true) ∧ FormsAct (formsOfRule 247) id ∧ FormsAct (formsOfRule 251) id := by
  simp only [FormsAct, formsOfRule, List.forall_mem_cons, List.not_mem_nil, false_implies, implies_true, and_true]
  repeat' apply And.intro
  all_goals exact fun _ _ => ⟨rfl, rfl⟩

theorem formsRead_nops : FormsRead (formsOfRule 252) (fun _ c => c) ∧
    FormsRead (formsOfRule 253) (fun _ c => c) := by
  simp only [FormsRead, formsOfRule, List.forall_mem_cons, List.not_mem_nil, false_implies, implies_true, and_true]
  repeat' apply And.intro
  all_goals exact fun _ _ => ⟨rfl, rfl⟩

/-! ### The obligation -/

/-- Settles O27: each flag instruction writes one flag, which is one mask of P (`put_false_eq`, `put_true_eq`); the implied
NOPs apply the identity, and the others read their operand byte and discard it. -/
theorem flagInstructionsAndNops : Obligations.FlagInstructionsAndNops := by
  obtain ⟨hclc, hsec, hcli, hsei, hclv, hcld, hsed, hnop, hnopImplied⟩ := formsAct_flags_and_nops
  obtain ⟨hnopImmediate, hnopMemory⟩ := formsRead_nops
  exact ⟨actsAs_of_formsAct (put_false_eq rfl) hclc, actsAs_of_formsAct (put_true_eq rfl) hsec,
    actsAs_of_formsAct (put_false_eq rfl) hcli, actsAs_of_formsAct (put_true_eq rfl) hsei,
    actsAs_of_formsAct (put_false_eq rfl) hclv, actsAs_of_formsAct (put_false_eq rfl) hcld,
    actsAs_of_formsAct (put_true_eq rfl) hsed, actsAs_of_formsAct (fun _ => rfl) hnop,
    actsAs_of_formsAct (fun _ => rfl) hnopImplied, readsAs_of_formsRead (fun _ _ => rfl) hnopImmediate,
    readsAs_of_formsRead (fun _ _ => rfl) hnopMemory⟩

end Sys2Proof.Machine
end

section
/-! PROOFS. The immediate combinations and the read-modify-write combinations (spec/47_unofficial.md rules R258 to R267). -/

namespace Sys2Proof.Machine

/-! ### The immediate combinations, as arithmetic on numbers (rules R264 to R267) -/

/-- ANC (rule R264): C is bit 7 of the result. -/
theorem anc_eq (m : Byte) (c : Cpu) : anc m c =
    { c with a := c.a &&& m, p := withC (decide (128 ≤ (c.a &&& m).toNat)) (withNZ (c.a &&& m) c.p) } := by
  rw [anc, put_C_eq, andA, loadA_eq, bit7_eq]

/-- ALR (rule R265) is LSR's byte operation on `A & m`, loaded into A. -/
theorem alr_eq (m : Byte) (c : Cpu) : alr m c =
    { loadASpec (BitVec.ofNat 8 ((c.a &&& m).toNat / 2)) c with
      p := withC (decide ((c.a &&& m).toNat % 2 = 1)) (withNZ (BitVec.ofNat 8 ((c.a &&& m).toNat / 2)) c.p) } := by
  have hlsr : alr m c = loadA (lsrByte (c.a &&& m) c).1 (lsrByte (c.a &&& m) c).2 := rfl
  rw [hlsr, lsrByte_eq, loadA_eq, withC_withNZ]
  rfl

/-- ARR (rule R266), by its result byte: C is bit 6 and V bit 6 xor bit 5. -/
theorem arr_eq (m : Byte) (c : Cpu) : arr m c =
    { c with a := arrByte m c,
             p := withC ((arrByte m c).getLsbD 6)
               (withV ((arrByte m c).getLsbD 6 != (arrByte m c).getLsbD 5) (withNZ (arrByte m c) c.p)) } := by
  rw [arr, put_V_eq, put_C_eq, loadA_eq, withC_withV]

/-- The difference of two bytes, by their numbers. -/
theorem ofInt_toNat_sub_toNat (r m : Byte) : BitVec.ofInt 8 ((r.toNat : Int) - m.toNat) = r - m := by bv_omega

/-- AXS (rule R267): the difference without a borrow in. -/
theorem axs_eq (m : Byte) (c : Cpu) : axs m c =
    { c with x := BitVec.ofInt 8 (((c.a &&& c.x).toNat : Int) - m.toNat),
             p := withC (decide (m.toNat ≤ (c.a &&& c.x).toNat))
               (withNZ (BitVec.ofInt 8 (((c.a &&& c.x).toNat : Int) - m.toNat)) c.p) } := by
  rw [axs, loadX_eq, put_C_eq, ofInt_toNat_sub_toNat, withC_withNZ]

/-! ### The opcodes of these rules, read off the opcode table (rule R106) one by one -/

theorem formsRead_immediateCombinations :
    FormsRead (formsOfRule 264) anc ∧ FormsRead (formsOfRule 265) alr ∧ FormsRead (formsOfRule 266) arr ∧
    FormsRead (formsOfRule 267) axs := by
  simp only [FormsRead, formsOfRule, List.forall_mem_cons, List.not_mem_nil, false_implies, implies_true, and_true]
  repeat' apply And.intro
  all_goals exact fun _ _ => ⟨rfl, rfl⟩

theorem formsModify_readModifyWriteCombinations :
    FormsModify (formsOfRule 258) decByte cmpA ∧ FormsModify (formsOfRule 259) incByte sbc ∧
    FormsModify (formsOfRule 260) aslByte oraA ∧ FormsModify (formsOfRule 261) rolByte andA ∧
    FormsModify (formsOfRule 262) lsrByte eorA ∧ FormsModify (formsOfRule 263) rorByte adc := by
  simp only [FormsModify, formsOfRule, List.forall_mem_cons, List.not_mem_nil, false_implies, implies_true, and_true,
    ne_eq, reduceCtorEq, not_false_eq_true, forall_const]
  repeat' apply And.intro
  all_goals exact fun _ _ => ⟨rfl, _, rfl, rfl⟩

/-! ### The obligations -/

/-- Settles O22: each combination's forms are immediate, and what it does to the registers is its equation above; ARR's
result byte is the rotated `A & m` (`arrByte_eq`). -/
theorem immediateCombinations : Obligations.ImmediateCombinations := by
  obtain ⟨hanc, halr, harr, haxs⟩ := formsRead_immediateCombinations
  exact ⟨readsAs_of_formsRead anc_eq hanc, readsAs_of_formsRead alr_eq halr,
    readsAs_of_formsRead (fun m c => arrByte_eq m c ▸ arr_eq m c) harr, readsAs_of_formsRead axs_eq haxs⟩

/-- Settles O25: each form rewrites its byte with the operation of INC, DEC or the shift or rotate, and applies to the byte
written the comparison, sum, difference or load of the official instruction, after the carry of the first was set. -/
theorem readModifyWriteCombinations : Obligations.ReadModifyWriteCombinations := by
  obtain ⟨hdcp, hisc, hslo, hrla, hsre, hrra⟩ := formsModify_readModifyWriteCombinations
  exact ⟨modifiesAs_of_formsModify decByte_eq (fun r c => compare_eq c.a r c) hdcp,
    modifiesAs_of_formsModify incByte_eq sbc_eq hisc,
    modifiesAs_of_formsModify aslByte_eq (fun r c => loadA_eq (c.a ||| r) c) hslo,
    modifiesAs_of_formsModify rolByte_eq (fun r c => loadA_eq (c.a &&& r) c) hrla,
    modifiesAs_of_formsModify lsrByte_eq (fun r c => loadA_eq (c.a ^^^ r) c) hsre,
    modifiesAs_of_formsModify rorByte_eq add_eq hrra⟩

end Sys2Proof.Machine
end

section
/-! PROOFS. The boundary poll and the two interrupt entries (spec/60_exceptions.md rules R303, R306), BRK's trap (rules
R235, R308) and RTI's return (rule R236). -/

namespace Sys2Proof.Machine

/-! ### The poll (rule R303), one equation per outcome -/

theorem poll_of_nmi {s : State} (hnmi : s.nmiPending = true) :
    poll s = some (State.entered 0xFFFA#16 { s with nmiPending := false }) := by
  rw [poll, if_pos hnmi, nmiVector, interruptEntry_eq (by decide) (by decide)]

theorem poll_of_irq {s : State} (hnmi : s.nmiPending = false) (hirq : s.mapper.irqPending = true)
    (hI : getFlag s.cpu.p .I = false) : poll s = some (State.entered 0xFFFE#16 s) := by
  have htaken : s.irqTaken = true := by simp [State.irqTaken, Cpu.get, hirq, hI]
  rw [poll, if_neg (by simp [hnmi]), if_pos htaken, irqVector, interruptEntry_eq (by decide) (by decide)]

theorem poll_eq_none {s : State} (hnmi : s.nmiPending = false)
    (hirq : s.mapper.irqPending = false ∨ getFlag s.cpu.p .I = true) : poll s = none := by
  have htaken : s.irqTaken = false := by
    rcases hirq with hline | hI
    · simp [State.irqTaken, hline]
    · simp [State.irqTaken, Cpu.get, hI]
  simp [poll, hnmi, htaken]

/-! ### A boundary at which the host neither stops nor resets, by the poll's outcome (rule R482) -/

theorem step_eq_act {s : State} (hstop : s.takeTurn.1.stop = false) : step s = act s.takeTurn.1.reset s.afterHost := by
  simp only [step, turn, hstop, Bool.false_eq_true, if_false, State.afterHost]

/-- Where the poll takes an entry, the cost it charged is drained. -/
theorem act_of_poll_some {s u : State} {cost : Nat} (hpoll : poll s = some u) (hcyc : u.cyc = s.cyc + cost) :
    act false s = .next (u.drain cost) := by
  simp only [act, hpoll, Bool.false_eq_true, if_false, settle, hcyc, Nat.add_sub_cancel_left]

/-- Where the poll takes nothing, one instruction is fetched and run. -/
theorem act_of_poll_none {s : State} (hpoll : poll s = none) :
    act false s = settled s.cyc (exec (fetchInstr s).1 (fetchInstr s).2) := by
  simp only [act, hpoll, Bool.false_eq_true, if_false, stepInstr]
  cases exec (fetchInstr s).1 (fetchInstr s).2 <;> rfl

/-- Settles O15: the step is the action that the poll's outcome chooses, and an entry charges 7 cycles. -/
theorem pollTakesNmiThenUnmaskedIrq : Obligations.PollTakesNmiThenUnmaskedIrq := by
  intro s b hstop hreset hb
  have hstep : step s = act false b := by rw [step_eq_act hstop, hreset, hb, State.afterHost]
  refine ⟨fun hnmi => ?_, fun hnmi hirq hI => ?_, fun hnmi hirq => ?_⟩
  · exact hstep.trans (act_of_poll_some (poll_of_nmi hnmi) rfl)
  · exact hstep.trans (act_of_poll_some (poll_of_irq hnmi hirq hI) rfl)
  · exact hstep.trans (act_of_poll_none (poll_eq_none hnmi hirq))

/-! ### BRK and RTI, in full -/

/-- BRK (rules R235, R308): the trap's frame holds PC + 1 and P with B and U set. -/
theorem execBrk_eq (s : State) : execBrk s = .next
    { s with
      cpu := { s.cpu with sp := s.cpu.sp - 3#8, p := s.cpu.p ||| 0x04#8, pc := s.vectorAt 0xFFFE#16 }
      ram := exceptionFrame s.cpu.sp (s.cpu.pc + 1#16) (s.cpu.p ||| 0x30#8) s.ram
      busLast := hiByte (s.vectorAt 0xFFFE#16)
      cyc := s.cyc + 7 } := by
  rw [execBrk, softwareInterrupt, irqVector, takeException_eq _ _ (by decide) (by decide)]
  rfl

/-- RTI (rule R236): the status is the first byte above SP, and the two bytes of PC are the next. -/
theorem execRti_eq (s : State) : execRti s = .next
    { s with
      cpu := { s.cpu with
        sp := s.cpu.sp + 3#8
        p := (s.stackByte (s.cpu.sp + 1#8) &&& 0xEF#8) ||| 0x20#8
        pc := wordOf (s.stackByte (s.cpu.sp + 3#8)) (s.stackByte (s.cpu.sp + 2#8)) }
      busLast := s.stackByte (s.cpu.sp + 3#8)
      cyc := s.cyc + 6 } := by
  simp only [execRti, returnFromException, pull_eq, pull16_eq, State.mapCpu, State.stackByte, BitVec.add_assoc]
  rfl

/-- Settles O16: BRK is the exception entry through $FFFE, and RTI a pull of the status and a pull of PC. -/
theorem brkTrapsAndRtiReturns : Obligations.BrkTrapsAndRtiReturns :=
  fun s => ⟨rfl, rfl, execBrk_eq s, execRti_eq s⟩

end Sys2Proof.Machine
end

section
/-! PROOFS. The VRAM address as fields (spec/61_ppu.md rules R343, R377 to R380), the dots at which a tick updates it (rule
R370), and the two ends of vblank (rules R366, R367). -/

namespace Sys2Proof.Machine

/-! ### Masked bits, as arithmetic -/

/-- A mask keeps the field of `k` bits from bit `j` on. -/
theorem toNat_and_field {w : Nat} {mask : BitVec w} (j k : Nat) (hmask : mask.toNat = (2 ^ k - 1) * 2 ^ j)
    (x : BitVec w) : (x &&& mask).toNat = x.toNat / 2 ^ j % 2 ^ k * 2 ^ j := by
  rw [BitVec.toNat_and, hmask, and_field]

/-- A field is all ones where the mask changes nothing in it. -/
theorem and_eq_mask_iff {w : Nat} {mask : BitVec w} (j k : Nat) (hmask : mask.toNat = (2 ^ k - 1) * 2 ^ j)
    (x : BitVec w) : x &&& mask = mask ↔ x.toNat / 2 ^ j % 2 ^ k = 2 ^ k - 1 := by
  rw [← BitVec.toNat_inj, toNat_and_field j k hmask, hmask, Nat.mul_left_inj (by positivity)]

/-- A masked copy takes each bit of the mask from the source and each other bit from the destination. -/
theorem getLsbD_copyBits (mask src dst : BitVec 15) (i : Nat) :
    (copyBits mask src dst).getLsbD i = if mask.getLsbD i then src.getLsbD i else dst.getLsbD i := by
  simp only [copyBits, BitVec.getLsbD_or, BitVec.getLsbD_and, BitVec.getLsbD_not]
  by_cases hi : i < 15
  · cases mask.getLsbD i <;> simp [hi]
  · simp [BitVec.getLsbD_of_ge _ i (Nat.le_of_not_lt hi)]

/-- Copying the field of `k` bits from bit `j` on leaves the numbers above and below it. -/
theorem toNat_copyBits {mask : BitVec 15} (j k : Nat) (hmask : mask.toNat = (2 ^ k - 1) * 2 ^ j) (src dst : BitVec 15) :
    (copyBits mask src dst).toNat =
      dst.toNat / 2 ^ (j + k) * 2 ^ (j + k) + src.toNat / 2 ^ j % 2 ^ k * 2 ^ j + dst.toNat % 2 ^ j := by
  have hmaskBit (i : Nat) : mask.getLsbD i = (decide (j ≤ i) && decide (i - j < k)) := by
    rw [← BitVec.testBit_toNat, hmask, Nat.testBit_mul_two_pow, Nat.testBit_two_pow_sub_one]
  have hfields : dst.toNat / 2 ^ (j + k) * 2 ^ (j + k) + src.toNat / 2 ^ j % 2 ^ k * 2 ^ j + dst.toNat % 2 ^ j =
      2 ^ j * (2 ^ k * (dst.toNat / 2 ^ (j + k)) + src.toNat / 2 ^ j % 2 ^ k) + dst.toNat % 2 ^ j := by ring
  rw [hfields]
  apply Nat.eq_of_testBit_eq
  intro i
  rw [BitVec.testBit_toNat, getLsbD_copyBits, hmaskBit, Nat.testBit_two_pow_mul_add _ (Nat.mod_lt _ (by positivity)),
    Nat.testBit_two_pow_mul_add _ (Nat.mod_lt _ (by positivity)), Nat.testBit_mod_two_pow, Nat.testBit_mod_two_pow,
    Nat.testBit_div_two_pow, Nat.testBit_div_two_pow, BitVec.testBit_toNat, BitVec.testBit_toNat, BitVec.testBit_toNat]
  by_cases hj : j ≤ i
  · by_cases hk : i - j < k
    · simp [hj, hk, Nat.not_lt.mpr hj]
    · simp [hj, hk, Nat.not_lt.mpr hj, show i - j - k + (j + k) = i by omega]
  · simp [hj, Nat.lt_of_not_le hj]

/-- Two fields are copied one after the other. -/
theorem copyBits_or (m n src dst : BitVec 15) :
    copyBits (m ||| n) src dst = copyBits n src (copyBits m src dst) := by
  apply BitVec.eq_of_getLsbD_eq
  intro i _
  simp only [getLsbD_copyBits, BitVec.getLsbD_or]
  cases m.getLsbD i <;> cases n.getLsbD i <;> rfl

/-- Clearing a field is copying it from zero. -/
theorem and_not_eq_copyBits (mask v : BitVec 15) : v &&& ~~~mask = copyBits mask 0#15 v := by
  rw [copyBits, BitVec.zero_and, BitVec.or_zero]

/-- Toggling a field is copying it from the complement. -/
theorem xor_eq_copyBits (mask v : BitVec 15) : v ^^^ mask = copyBits mask (~~~v) v := by
  apply BitVec.eq_of_getLsbD_eq
  intro i hi
  simp only [getLsbD_copyBits, BitVec.getLsbD_xor, BitVec.getLsbD_not, hi]
  cases mask.getLsbD i <;> simp

theorem toNat_complement (v : BitVec 15) : (~~~v).toNat = 32767 - v.toNat := BitVec.toNat_not

/-! ### The updates of the VRAM address, field by field -/

/-- Coarse X increment (rule R377). -/
theorem toNat_incCoarseX (v : BitVec 15) : (incCoarseX v).toNat = if coarseX v = 31 then
    32 * coarseY v + 1024 * (1 - ntX v) + 2048 * ntY v + 4096 * fineYOf v else v.toNat + 1 := by
  have hv := v.isLt
  have hfull : v &&& 0x001F#15 = 0x001F#15 ↔ coarseX v = 31 := by
    rw [and_eq_mask_iff 0 5 rfl, pow_zero, Nat.div_one]
    rfl
  simp only [incCoarseX, hfull]
  by_cases h : coarseX v = 31
  · rw [if_pos h, if_pos h, and_not_eq_copyBits, xor_eq_copyBits, toNat_copyBits 10 1 rfl, toNat_complement,
      toNat_copyBits 0 5 rfl]
    simp only [coarseX, coarseY, ntX, ntY, fineYOf, BitVec.toNat_ofNat] at *
    omega
  · rw [if_neg h, if_neg h, BitVec.toNat_add, BitVec.toNat_ofNat]
    simp only [coarseX] at h
    omega

/-- Coarse Y, as the Y increment reads it. -/
theorem toNat_coarseY_bits (v : BitVec 15) : ((v >>> 5) &&& 0x001F#15).toNat = coarseY v := by
  rw [toNat_and_field 0 5 rfl, BitVec.toNat_ushiftRight, Nat.shiftRight_eq_div_pow, pow_zero, Nat.div_one, Nat.mul_one]
  rfl

/-- Y increment (rule R378). -/
theorem toNat_incY (v : BitVec 15) : (incY v).toNat = if fineYOf v < 7 then v.toNat + 4096
    else coarseX v + 1024 * ntX v
      + (if coarseY v = 29 then 2048 * (1 - ntY v)
         else if coarseY v = 31 then 2048 * ntY v else 32 * (coarseY v + 1) + 2048 * ntY v) := by
  have hv := v.isLt
  have hfull : v &&& 0x7000#15 = 0x7000#15 ↔ ¬ fineYOf v < 7 := by
    rw [and_eq_mask_iff 12 3 rfl, fineYOf]
    omega
  have hclear : (copyBits 0x7000#15 0#15 v).toNat = v.toNat % 4096 := by
    rw [toNat_copyBits 12 3 rfl, BitVec.toNat_ofNat]
    omega
  have hcoarse : coarseY (copyBits 0x7000#15 0#15 v) = coarseY v := by
    simp only [coarseY, hclear]
    omega
  by_cases hfine : fineYOf v < 7
  · rw [if_pos hfine, incY, if_neg (by rwa [hfull, not_not]), BitVec.toNat_add, BitVec.toNat_ofNat]
    simp only [fineYOf] at hfine
    omega
  · rw [if_neg hfine, incY, if_pos (hfull.mpr hfine), and_not_eq_copyBits]
    simp only [← BitVec.toNat_inj, toNat_coarseY_bits, hcoarse, and_not_eq_copyBits, xor_eq_copyBits,
      apply_ite BitVec.toNat, toNat_copyBits 11 1 (mask := 0x0800#15) rfl, toNat_copyBits 5 5 (mask := 0x03E0#15) rfl,
      hclear, toNat_complement, BitVec.toNat_add, show (29#15).toNat = 29 from rfl, show (31#15).toNat = 31 from rfl]
    by_cases h29 : coarseY v = 29
    · rw [if_pos h29, if_pos h29]
      simp only [coarseX, ntX, ntY, BitVec.toNat_ofNat]
      omega
    · rw [if_neg h29, if_neg h29]
      by_cases h31 : coarseY v = 31
      · rw [if_pos h31, if_pos h31]
        simp only [coarseX, ntX, ntY, BitVec.toNat_ofNat]
        omega
      · rw [if_neg h31, if_neg h31]
        simp only [coarseX, coarseY, ntX, ntY, BitVec.toNat_ofNat] at *
        omega

/-- Horizontal copy (rule R379): two fields. -/
theorem toNat_copyX (t v : BitVec 15) : (copyX t v).toNat =
    coarseX t + 32 * coarseY v + 1024 * ntX t + 2048 * ntY v + 4096 * fineYOf v := by
  have hhigh : (copyBits 0x001F#15 t v).toNat / 2 ^ 11 = ntY v + 2 * fineYOf v := by
    rw [toNat_copyBits 0 5 rfl]
    simp only [ntY, fineYOf]
    omega
  have hlow : (copyBits 0x001F#15 t v).toNat % 2 ^ 10 = coarseX t + 32 * coarseY v := by
    rw [toNat_copyBits 0 5 rfl]
    simp only [coarseX, coarseY]
    omega
  rw [copyX, show 0x041F#15 = 0x001F#15 ||| 0x0400#15 from rfl, copyBits_or, toNat_copyBits 10 1 rfl, hlow, hhigh, ntX]
  omega

/-- Vertical copy (rule R380): two fields. -/
theorem toNat_copyY (t v : BitVec 15) : (copyY t v).toNat =
    coarseX v + 32 * coarseY t + 1024 * ntX v + 2048 * ntY t + 4096 * fineYOf t := by
  have ht : t.toNat / 2048 < 16 := Nat.div_lt_of_lt_mul t.isLt
  have htop : (copyBits 0x03E0#15 t v).toNat / 2 ^ 15 = 0 := Nat.div_eq_of_lt (BitVec.isLt _)
  have hlow : (copyBits 0x03E0#15 t v).toNat % 2 ^ 11 = coarseX v + 32 * coarseY t + 1024 * ntX v := by
    rw [toNat_copyBits 5 5 rfl]
    simp only [coarseX, coarseY, ntX]
    omega
  have hfine : fineYOf t = t.toNat / 2048 / 2 := by
    rw [fineYOf, Nat.div_div_eq_div_mul]
  rw [copyY, show 0x7BE0#15 = 0x03E0#15 ||| 0x7800#15 from rfl, copyBits_or, toNat_copyBits 11 4 rfl, hlow, htop, hfine,
    ntY]
  omega

/-! ### The two ends of vblank -/

theorem begun_kept (s : Video) : PpuKept (advance s.ppu) s.begun.ppu :=
  vblankEvents_kept { s with ppu := advance s.ppu }

theorem begun_of_vblankStart {s : Video} (hline : (advance s.ppu).scanline = 241) (hdot : (advance s.ppu).dot = 1) :
    s.begun = { s with
      ppu := { advance s.ppu with vblank := true, frameReady := true }, nmi := s.nmi || s.ppu.ctrl.getLsbD 7 } := by
  obtain ⟨-, hctrl, -⟩ := advance_kept s.ppu
  simp only [Video.begun, vblankEvents, hline, hdot, and_self, if_true, Ppu.nmiEn, hctrl]

theorem begun_of_vblankEnd {s : Video} (hline : (advance s.ppu).scanline = 261) (hdot : (advance s.ppu).dot = 1) :
    s.begun = { s with
      ppu := { advance s.ppu with vblank := false, sprite0hit := false, overflow := false }, nmi := false } := by
  simp only [Video.begun, vblankEvents, hline, hdot, and_true, if_true, show ¬ 261 = 241 by decide, if_false]

/-- Below the picture no pixel is output (rule R365). -/
theorem pixelStage_of_invisible {p : Ppu} (h : 240 ≤ p.scanline) : pixelStage p = p := by
  simp [pixelStage, Ppu.visibleLine, Nat.not_lt.mpr h]

/-- Up to dot 256 the fetches leave the status flags as they are: sprite evaluation is at dot 257. -/
theorem fetchSteps_flags (c : Cart) (f : Nat) {s : Video} (h : s.ppu.dot ≤ 256) :
    (fetchSteps c f s).ppu.vblank = s.ppu.vblank ∧ (fetchSteps c f s).ppu.sprite0hit = s.ppu.sprite0hit ∧
      (fetchSteps c f s).ppu.overflow = s.ppu.overflow := by
  obtain ⟨_, _, _, _, hshift⟩ := shiftStage_writes s.ppu
  obtain ⟨_, _, _, _, _, hfetch⟩ := fetchStage_writes c f { s with ppu := shiftStage s.ppu }
  rw [fetchSteps_drawing c f s h, hfetch, hshift]
  exact ⟨rfl, rfl, rfl⟩

/-- The tick that reaches 241:1 begins vblank and does nothing else: the line neither renders nor draws. -/
theorem tick_of_vblankStart (c : Cart) (f : Nat) {s : Video} (hline : (advance s.ppu).scanline = 241)
    (hdot : (advance s.ppu).dot = 1) :
    s.tick c f = { s with
      ppu := { advance s.ppu with vblank := true, frameReady := true }, nmi := s.nmi || s.ppu.ctrl.getLsbD 7 } := by
  have hidle : ¬ (advance s.ppu).renders := by
    rintro ⟨-, h⟩
    omega
  rw [Video.tick_of_idle c f hidle, pixelStage_of_invisible (by rw [(begun_kept s).scanline]; omega),
    begun_of_vblankStart hline hdot]

/-- The tick that reaches 261:1 clears the flags, and no later stage of it sets one. -/
theorem tick_of_vblankEnd (c : Cart) (f : Nat) {s : Video} (hline : (advance s.ppu).scanline = 261)
    (hdot : (advance s.ppu).dot = 1) :
    (s.tick c f).ppu.vblank = false ∧ (s.tick c f).ppu.sprite0hit = false ∧ (s.tick c f).ppu.overflow = false ∧
      (s.tick c f).nmi = false := by
  have hbegun := begun_of_vblankEnd hline hdot
  have hkept := begun_kept s
  by_cases hr : (advance s.ppu).renders
  · obtain ⟨hvblank, hhit, hoverflow⟩ := fetchSteps_flags c f (s := s.begun) (by rw [hkept.dot]; omega)
    have hfetch := fetchSteps_kept c f s.begun
    rw [Video.tick_of_renders c f hr]
    generalize fetchSteps c f s.begun = u at *
    obtain ⟨_, hscroll⟩ := scrollStage_writes u.ppu
    obtain ⟨_, hoam⟩ := oamaddrStage_writes (scrollStage u.ppu)
    dsimp only
    rw [pixelStage_of_invisible (by rw [hfetch.kept.scanline, hkept.scanline]; omega), hoam, hscroll, hfetch.nmi]
    dsimp only
    rw [hvblank, hhit, hoverflow, hbegun]
    exact ⟨rfl, rfl, rfl, rfl⟩
  · rw [Video.tick_of_idle c f hr, pixelStage_of_invisible (by rw [hkept.scanline]; omega), hbegun]
    exact ⟨rfl, rfl, rfl, rfl⟩

/-- Settles O41: vblank's events are the whole tick at 241:1, and at 261:1 no later stage sets a flag again. -/
theorem vblankBeginsAndEnds : Obligations.VblankBeginsAndEnds := by
  intro s
  refine ⟨fun hline hdot => ?_, ?_⟩
  · rw [State.tick, tick_of_vblankStart (s := s.video) _ _ hline hdot]
    rfl
  · exact tick_of_vblankEnd (s := s.video) _ _

/-! ### The dots at which a tick changes `v` -/

theorem begun_v (s : Video) : s.begun.ppu.v = s.ppu.v := by
  obtain ⟨_, _, _, _, _, hevents⟩ := vblankEvents_writes { s with ppu := advance s.ppu }
  obtain ⟨_, _, _, _, hadvance⟩ := advance_writes s.ppu
  rw [Video.begun, hevents, hadvance]

theorem fetchSteps_v (c : Cart) (f : Nat) (s : Video) : (fetchSteps c f s).ppu.v = s.ppu.v := by
  obtain ⟨_, _, _, _, hshift⟩ := shiftStage_writes s.ppu
  obtain ⟨_, _, _, _, _, hfetch⟩ := fetchStage_writes c f { s with ppu := shiftStage s.ppu }
  unfold fetchSteps
  dsimp only
  generalize fetchStage c f { s with ppu := shiftStage s.ppu } = u at *
  obtain ⟨_, _, _, _, _, _, heval⟩ := evalStage_writes u.ppu
  obtain ⟨_, _, _, hsprite⟩ := spriteStage_writes c f { u with ppu := evalStage u.ppu }
  rw [hsprite, heval, hfetch, hshift]

theorem pixelStage_v (p : Ppu) : (pixelStage p).v = p.v := by
  obtain ⟨_, _, h⟩ := pixelStage_writes p
  rw [h]

theorem oamaddrStage_v (p : Ppu) : (oamaddrStage p).v = p.v := by
  obtain ⟨_, h⟩ := oamaddrStage_writes p
  rw [h]

/-- A rendering tick changes `v` by its step (8) only, from the `v`, `t` and position that it began with. -/
theorem tick_v_of_renders (c : Cart) (f : Nat) {s : Video} {q : Ppu} (hq : q = advance s.ppu) (h : q.renders) :
    (s.tick c f).ppu.v =
      if q.dot = 256 then incY (incCoarseX s.ppu.v)
      else if q.dot = 257 then copyX s.ppu.t s.ppu.v
      else if q.scanline = 261 ∧ 280 ≤ q.dot ∧ q.dot ≤ 304 then copyY s.ppu.t s.ppu.v
      else if isTileDot q.dot ∧ q.dot % 8 = 0 then incCoarseX s.ppu.v
      else s.ppu.v := by
  subst hq
  have hkept := ((begun_kept s).trans (fetchSteps_kept c f s.begun).kept).trans (pixelStage_kept _)
  have hv : (pixelStage (fetchSteps c f s.begun).ppu).v = s.ppu.v := by rw [pixelStage_v, fetchSteps_v, begun_v]
  obtain ⟨-, -, -, -, -, -, -, ht, -⟩ := advance_kept s.ppu
  rw [Video.tick_of_renders c f h]
  generalize fetchSteps c f s.begun = u at *
  dsimp only
  rw [oamaddrStage_v, scrollStage_v, hkept.dot, hkept.scanline, hkept.t, hv, ht]

theorem tick_v_of_idle (c : Cart) (f : Nat) {s : Video} (h : ¬ (advance s.ppu).renders) :
    (s.tick c f).ppu.v = s.ppu.v := by
  rw [Video.tick_of_idle c f h, pixelStage_v, begun_v]

/-- Settles O44: the four updates field by field, and step (8) as the only one of a tick's steps that changes `v`. -/
theorem scrollUpdates : Obligations.ScrollUpdates := by
  refine ⟨fun v t => ⟨toNat_incCoarseX v, toNat_incY v, toNat_copyX t v, toNat_copyY t v⟩, ?_⟩
  intro s q hq
  exact ⟨tick_v_of_renders (s := s.video) _ _ hq, fun h => tick_v_of_idle (s := s.video) _ _ (hq ▸ h)⟩

end Sys2Proof.Machine
end

section
/-! PROOFS. The PPU's registers as the CPU reads and writes them (spec/61_ppu.md rules R347 to R350, R353 to R362). -/

namespace Sys2Proof.Machine

/-! ### PPUDATA's address and its increment -/

theorem vramAddr_eq {a : BitVec 14} {v : BitVec 15} (h : a.toNat = v.toNat % 16384) : vramAddr v = a :=
  BitVec.eq_of_toNat_eq (by rw [h, vramAddr, BitVec.toNat_setWidth])

theorem bumpV_eq (p : Ppu) :
    bumpV p = { p with v := BitVec.ofNat 15 (p.v.toNat + if p.ctrl.getLsbD 2 then 32 else 1) } := by
  have hv : p.v + (if p.inc32 then 32#15 else 1#15) =
      BitVec.ofNat 15 (p.v.toNat + if p.ctrl.getLsbD 2 then 32 else 1) := by
    apply BitVec.eq_of_toNat_eq
    unfold Ppu.inc32
    cases p.ctrl.getLsbD 2 <;> simp
  rw [bumpV, hv]

/-! ### Reads -/

/-- PPUSTATUS, from the number that its three flags and the low five bits of the bus make (rule R349). -/
theorem statusByte_eq {p : Ppu} {openBus v : Byte}
    (h : v.toNat = openBus.toNat % 32 + 32 * p.overflow.toNat + 64 * p.sprite0hit.toNat + 128 * p.vblank.toNat) :
    statusByte p openBus = v := by
  have hopen : (openBus &&& 0x1F#8).toNat = openBus.toNat % 32 := by
    rw [toNat_and_field 0 5 rfl]
    omega
  have hflags : (statusByte p openBus).toNat =
      2 ^ 5 * (p.overflow.toNat + 2 * p.sprite0hit.toNat + 4 * p.vblank.toNat) ||| openBus.toNat % 32 := by
    rw [statusByte, BitVec.toNat_or, hopen]
    cases p.vblank <;> cases p.sprite0hit <;> cases p.overflow <;> rfl
  apply BitVec.eq_of_toNat_eq
  rw [hflags, or_eq_add _ (openBus.toNat % 32) 5 (Nat.mod_lt _ (by decide)), h]
  omega

/-- PPUDATA read in full (rules R361, R362). -/
theorem readData_eq {s : State} {a : BitVec 14} (ha : vramAddr s.ppu.v = a) :
    readData s =
      (if a.toNat < 0x3F00 then s.ppu.readbuf else s.ppu.palette.read (palIndex a.toNat) ||| (s.busLast &&& 0xC0#8),
        let fetched := if a.toNat < 0x3F00 then a else a &&& 0x2FFF#14
        let m := s.mapper.notify s.params.a12FilterDots fetched s.ppu.ticks
        { s with
          mapper := m
          ppu := { s.ppu with
            readbuf := ppuPeek s.cart m s.ppu fetched
            v := BitVec.ofNat 15 (s.ppu.v.toNat + if s.ppu.ctrl.getLsbD 2 then 32 else 1) } }) := by
  simp only [readData, ha, bumpV_eq]
  by_cases h : a.toNat < 0x3F00
  · simp only [if_pos h]
    rfl
  · simp only [if_neg h]
    rfl

theorem busRead_ppuData (s : State) :
    busRead 0x2007#16 s = ((readData s).1, { (readData s).2 with busLast := (readData s).1 }) :=
  busRead_of_ppuReg (by decide) (by decide) s

/-- Settles O38: each address is a register by its low three bits, and PPUSTATUS and PPUDATA are the equations above. -/
theorem ppuRegisterReads : Obligations.PpuRegisterReads := by
  intro s v
  refine ⟨fun hstatus => ?_, ?_, fun a ha => ?_, ?_⟩
  · obtain rfl := statusByte_eq hstatus
    rw [busRead_of_ppuReg (by decide) (by decide)]
    rfl
  · rintro rfl
    rw [busRead_of_ppuReg (by decide) (by decide)]
    rfl
  · simp only [List.mem_cons, List.not_mem_nil, or_false] at ha
    rcases ha with rfl | rfl | rfl | rfl | rfl <;>
    · rw [busRead_of_ppuReg (by decide) (by decide)]
      rfl
  · rintro a _ _ ha rfl rfl rfl
    rw [busRead_ppuData, readData_eq (vramAddr_eq ha)]

/-! ### Writes, with the latch `t` as a number -/

/-- PPUCTRL (rule R347). -/
theorem writeCtrl_eq (v : Byte) (p : Ppu) : writeCtrl v p = { p with
    ctrl := v, t := BitVec.ofNat 15 (p.t.toNat / 4096 * 4096 + v.toNat % 4 * 1024 + p.t.toNat % 1024) } := by
  have ht : copyBits 0x0C00#15 (v.setWidth 15 <<< 10) p.t =
      BitVec.ofNat 15 (p.t.toNat / 4096 * 4096 + v.toNat % 4 * 1024 + p.t.toNat % 1024) := by
    have hlt := p.t.isLt
    apply BitVec.eq_of_toNat_eq
    rw [toNat_copyBits 10 2 rfl, BitVec.toNat_shiftLeft, BitVec.toNat_setWidth, BitVec.toNat_ofNat, Nat.shiftLeft_eq]
    omega
  rw [writeCtrl, ht]

/-- PPUSCROLL, first write (rule R356). -/
theorem writeScroll_first {p : Ppu} (hw : p.w = false) (v : Byte) : writeScroll v p = { p with
    t := BitVec.ofNat 15 (p.t.toNat / 32 * 32 + v.toNat / 8), x := BitVec.ofNat 3 v.toNat, w := true } := by
  have ht : copyBits 0x001F#15 (v.setWidth 15 >>> 3) p.t = BitVec.ofNat 15 (p.t.toNat / 32 * 32 + v.toNat / 8) := by
    have hlt := p.t.isLt
    have hv := v.isLt
    apply BitVec.eq_of_toNat_eq
    rw [toNat_copyBits 0 5 rfl, BitVec.toNat_ushiftRight, BitVec.toNat_setWidth, BitVec.toNat_ofNat,
      Nat.shiftRight_eq_div_pow]
    omega
  have hx : v.setWidth 3 = BitVec.ofNat 3 v.toNat := by
    apply BitVec.eq_of_toNat_eq
    rw [BitVec.toNat_setWidth, BitVec.toNat_ofNat]
  rw [writeScroll, if_neg (by rw [hw]; decide), ht, hx]

/-- PPUSCROLL, second write (rule R356): fine Y, then coarse Y. -/
theorem writeScroll_second {p : Ppu} (hw : p.w = true) (v : Byte) : writeScroll v p = { p with
    w := false
    t := BitVec.ofNat 15 (v.toNat % 8 * 4096 + p.t.toNat / 1024 % 4 * 1024 + v.toNat / 8 * 32 + p.t.toNat % 32) } := by
  have hlt := p.t.isLt
  have hv := v.isLt
  have hfine : (copyBits 0x7000#15 (v.setWidth 15 <<< 12) p.t).toNat = v.toNat % 8 * 4096 + p.t.toNat % 4096 := by
    rw [toNat_copyBits 12 3 rfl, BitVec.toNat_shiftLeft, BitVec.toNat_setWidth, Nat.shiftLeft_eq]
    omega
  have hcoarse : ((v.setWidth 15 >>> 3) <<< 5).toNat = v.toNat / 8 * 32 := by
    rw [BitVec.toNat_shiftLeft, BitVec.toNat_ushiftRight, BitVec.toNat_setWidth, Nat.shiftRight_eq_div_pow,
      Nat.shiftLeft_eq]
    omega
  have hhigh : (v.toNat % 8 * 4096 + p.t.toNat % 4096) / 2 ^ (5 + 5) * 2 ^ (5 + 5) =
      v.toNat % 8 * 4096 + p.t.toNat / 1024 % 4 * 1024 := by omega
  have hmid : v.toNat / 8 * 32 / 2 ^ 5 % 2 ^ 5 * 2 ^ 5 = v.toNat / 8 * 32 := by omega
  have hlow : (v.toNat % 8 * 4096 + p.t.toNat % 4096) % 2 ^ 5 = p.t.toNat % 32 := by omega
  have hsum : v.toNat % 8 * 4096 + p.t.toNat / 1024 % 4 * 1024 + v.toNat / 8 * 32 + p.t.toNat % 32 < 2 ^ 15 := by omega
  have ht : copyBits 0x03E0#15 ((v.setWidth 15 >>> 3) <<< 5) (copyBits 0x7000#15 (v.setWidth 15 <<< 12) p.t) =
      BitVec.ofNat 15 (v.toNat % 8 * 4096 + p.t.toNat / 1024 % 4 * 1024 + v.toNat / 8 * 32 + p.t.toNat % 32) := by
    apply BitVec.eq_of_toNat_eq
    rw [toNat_copyBits 5 5 rfl, hfine, hcoarse, hhigh, hmid, hlow, BitVec.toNat_ofNat, Nat.mod_eq_of_lt hsum]
  rw [writeScroll, if_pos hw, ht]

/-- The low six bits of a byte, which PPUADDR's first write and the palette keep. -/
theorem and_3F_eq (v : Byte) : v &&& 0x3F#8 = BitVec.ofNat 8 (v.toNat % 64) := by
  apply BitVec.eq_of_toNat_eq
  rw [toNat_and_field 0 6 rfl, BitVec.toNat_ofNat]
  omega

/-- PPUADDR, first write (rule R357). -/
theorem writeAddr_first {s : State} (hw : s.ppu.w = false) (v : Byte) : writeAddr v s = { s with
    ppu := { s.ppu with t := BitVec.ofNat 15 (v.toNat % 64 * 256 + s.ppu.t.toNat % 256), w := true } } := by
  have ht : copyBits 0x7F00#15 ((v &&& 0x3F#8).setWidth 15 <<< 8) s.ppu.t =
      BitVec.ofNat 15 (v.toNat % 64 * 256 + s.ppu.t.toNat % 256) := by
    have hlt := s.ppu.t.isLt
    apply BitVec.eq_of_toNat_eq
    rw [and_3F_eq, toNat_copyBits 8 7 rfl, BitVec.toNat_shiftLeft, BitVec.toNat_setWidth, BitVec.toNat_ofNat,
      BitVec.toNat_ofNat, Nat.shiftLeft_eq]
    omega
  rw [writeAddr, if_neg (by rw [hw]; decide), ht]

/-- PPUADDR, second write (rule R357). -/
theorem writeAddr_second {s : State} (hw : s.ppu.w = true) {v : Byte} {t : BitVec 15}
    (ht : t = BitVec.ofNat 15 (s.ppu.t.toNat / 256 * 256 + v.toNat)) : writeAddr v s = { s with
      mapper := s.mapper.notify s.params.a12FilterDots (BitVec.ofNat 14 t.toNat) s.ppu.ticks
      ppu := { s.ppu with t := t, v := t, w := false } } := by
  have hcopy : copyBits 0x00FF#15 (v.setWidth 15) s.ppu.t = t := by
    have hv := v.isLt
    apply BitVec.eq_of_toNat_eq
    rw [toNat_copyBits 0 8 rfl, BitVec.toNat_setWidth, ht, BitVec.toNat_ofNat]
    omega
  rw [writeAddr, if_pos hw, hcopy, ← vramAddr_eq (a := BitVec.ofNat 14 t.toNat) (BitVec.toNat_ofNat ..)]
  rfl

/-- Settles O39: each address is a register by its low three bits, and what PPUCTRL, PPUSCROLL and PPUADDR do to `t` is the
equations above. -/
theorem ppuRegisterWrites : Obligations.PpuRegisterWrites := by
  rintro s v _ rfl
  refine ⟨?ctrl, ?mask, ?status, ?oamaddr, ?oamdata, fun hw => ⟨?scrollFirst, ?addrFirst⟩,
    fun hw => ⟨?scrollSecond, fun t ht => ?addrSecond⟩⟩
  all_goals refine (busWrite_of_ppuReg (by decide) (by decide) v s).trans ?_
  case ctrl => exact congrArg (fun q => { s with busLast := v, ppu := q }) (writeCtrl_eq v s.ppu)
  case mask => rfl
  case status => rfl
  case oamaddr => rfl
  case oamdata => rfl
  case scrollFirst => exact congrArg (fun q => { s with busLast := v, ppu := q }) (writeScroll_first hw v)
  case addrFirst => exact writeAddr_first (s := { s with busLast := v }) hw v
  case scrollSecond => exact congrArg (fun q => { s with busLast := v, ppu := q }) (writeScroll_second hw v)
  case addrSecond => exact writeAddr_second (s := { s with busLast := v }) hw ht

/-! ### PPUDATA write -/

/-- CHR RAM takes the byte, CHR ROM ignores it (rule R423). -/
theorem mapperChrWrite_eq (c : Cart) (m : Mapper) (a : Nat) (v : Byte) : mapperChrWrite c m a v =
    { c with chr := if c.chrUnits = 0 then c.chr.write (chrOffset c m a) v else c.chr } := by
  unfold mapperChrWrite Cart.hasChrRam
  by_cases h : c.chrUnits = 0
  · rw [if_pos (beq_iff_eq.mpr h), if_pos h]
  · rw [if_neg (by rwa [beq_iff_eq]), if_neg h]

/-- PPUDATA write in full (rules R350, R358, R362). -/
theorem writeData_eq {s : State} {a : BitVec 14} (ha : vramAddr s.ppu.v = a) (v : Byte) :
    writeData v s =
      let m := s.mapper.notify s.params.a12FilterDots a s.ppu.ticks
      let next := BitVec.ofNat 15 (s.ppu.v.toNat + if s.ppu.ctrl.getLsbD 2 then 32 else 1)
      if a.toNat < 0x2000 then
        { s with mapper := m, ppu := { s.ppu with v := next }, cart := { s.cart with
          chr := if s.cart.chrUnits = 0 then s.cart.chr.write (chrOffset s.cart m a.toNat) v else s.cart.chr } }
      else if a.toNat < 0x3F00 then
        { s with mapper := m, ppu := { s.ppu with
          v := next, vram := s.ppu.vram.write (ntIndex (mapperMirroring s.cart m) a) v } }
      else
        { s with mapper := m, ppu := { s.ppu with
          v := next, palette := s.ppu.palette.write (palIndex a.toNat) (BitVec.ofNat 8 (v.toNat % 64)) } } := by
  simp only [writeData, State.ppuWrite, ha, bumpV_eq, mapperChrWrite_eq, and_3F_eq]
  by_cases hchr : a.toNat < 0x2000
  · simp only [if_pos hchr]
    rfl
  · by_cases hnametable : a.toNat < 0x3F00
    · simp only [if_neg hchr, if_pos hnametable]
      rfl
    · simp only [if_neg hchr, if_neg hnametable]
      rfl

/-- Settles O40: the write of register 7 is `writeData`, in each of the three ranges of the address. -/
theorem ppuDataWrite : Obligations.PpuDataWrite := by
  rintro s v a _ _ ha rfl rfl
  rw [busWrite_of_ppuReg (by decide) (by decide)]
  exact writeData_eq (s := { s with busLast := v }) (vramAddr_eq ha) v

end Sys2Proof.Machine
end

section
/-! PROOFS. The PPU's address space (spec/61_ppu.md rules R350 to R352) through each board (spec/62_mapper.md rules R425,
R434, R444, R446, R455, R456). -/

namespace Sys2Proof.Machine

/-! ### The three ranges of `ppuPeek` (rule R350) -/

theorem ppuPeek_of_chr {a : BitVec 14} (h : a.toNat < 0x2000) (c : Cart) (m : Mapper) (p : Ppu) :
    ppuPeek c m p a = c.chr.read (chrOffset c m a.toNat) := by
  rw [ppuPeek, if_pos h, mapperChrRead]

theorem ppuPeek_of_nametable {a : BitVec 14} (hlo : 0x2000 ≤ a.toNat) (hhi : a.toNat < 0x3F00) (c : Cart) (m : Mapper)
    (p : Ppu) : ppuPeek c m p a = p.vram.read (ntIndex (mapperMirroring c m) a) := by
  rw [ppuPeek, if_neg (by omega), if_pos hhi]

theorem ppuPeek_of_palette {a : BitVec 14} (h : 0x3F00 ≤ a.toNat) (c : Cart) (m : Mapper) (p : Ppu) :
    ppuPeek c m p a = p.palette.read (palIndex a.toNat) := by
  rw [ppuPeek, if_neg (by omega), if_neg (by omega)]

/-- The four mirrored backdrops, one by one (rule R352). -/
theorem palIndex_eq_mirrors (a : Nat) : palIndex a =
    if a % 32 = 16 ∨ a % 32 = 20 ∨ a % 32 = 24 ∨ a % 32 = 28 then a % 16 else a % 32 := by
  unfold palIndex
  dsimp only
  by_cases h : a % 32 = 16 ∨ a % 32 = 20 ∨ a % 32 = 24 ∨ a % 32 = 28
  · rw [if_pos (by omega), if_pos h]
    omega
  · rw [if_neg (by omega), if_neg h]

/-! ### The CHR windows of MMC1 (rule R446) and MMC3 (rule R455) -/

theorem mmc1ChrOffset_eq (r : Mmc1) (a : Nat) : mmc1ChrOffset r a =
    if r.control.getLsbD 4 = false then r.chr0.toNat / 2 * 8192 + a
    else if a < 0x1000 then r.chr0.toNat * 4096 + a
    else r.chr1.toNat * 4096 + (a - 0x1000) := by
  have hchr0 := r.chr0.isLt
  unfold mmc1ChrOffset
  cases r.control.getLsbD 4
  · rw [if_neg (by decide), if_pos rfl, toNat_and_field 1 4 rfl]
    omega
  · rw [if_pos rfl, if_neg (show ¬ true = false by decide)]

/-- Swapping the two halves of the CHR space. -/
theorem xor_1000_eq {a : Nat} (h : a < 0x2000) : a ^^^ 0x1000 = (a + 0x1000) % 0x2000 := by
  have hlow : (a ^^^ 2 ^ 12) % 2 ^ 12 = a % 2 ^ 12 := by
    rw [Nat.xor_mod_two_pow, Nat.mod_self, Nat.xor_zero]
  have hhigh : (a ^^^ 2 ^ 12) / 2 ^ 12 = 1 - a / 2 ^ 12 := by
    rw [Nat.xor_div_two_pow]
    obtain hhalf | hhalf : a / 2 ^ 12 = 0 ∨ a / 2 ^ 12 = 1 := by omega
    all_goals rw [hhalf]; rfl
  change a ^^^ 2 ^ 12 = _
  omega

/-- An even bank number. -/
theorem toNat_and_FE (b : Byte) : (b &&& 0xFE#8).toNat = b.toNat / 2 * 2 := by
  have hb := b.isLt
  rw [toNat_and_field 1 7 rfl]
  omega

/-- The odd bank number beside it. -/
theorem toNat_or_1 (b : Byte) : (b ||| 1#8).toNat = b.toNat / 2 * 2 + 1 := by
  have hlow : (b.toNat ||| 1) % 2 ^ 1 = 1 := by
    rw [Nat.or_mod_two_pow]
    obtain h | h := Nat.mod_two_eq_zero_or_one b.toNat
    all_goals rw [pow_one, h]; rfl
  have hhigh : (b.toNat ||| 1) / 2 ^ 1 = b.toNat / 2 := Nat.or_div_two_pow.trans (Nat.or_zero _)
  rw [BitVec.toNat_or]
  change b.toNat ||| 1 = _
  omega

/-- The bank that MMC3 shows in the 1KB window `k` of the CHR space, as arrangement 0 numbers them. -/
def mmc3WindowBank (r : Mmc3) : Nat → Nat
  | 0 => r.bank[0].toNat / 2 * 2
  | 1 => r.bank[0].toNat / 2 * 2 + 1
  | 2 => r.bank[1].toNat / 2 * 2
  | 3 => r.bank[1].toNat / 2 * 2 + 1
  | 4 => r.bank[2].toNat
  | 5 => r.bank[3].toNat
  | 6 => r.bank[4].toNat
  | _ => r.bank[5].toNat

theorem mmc3ChrBank_eq (r : Mmc3) {a k : Nat} (h : a < 0x2000) (hk : k = a / 1024) :
    (mmc3ChrBank r a).toNat = mmc3WindowBank r k := by
  unfold mmc3ChrBank
  split
  · obtain rfl : k = 0 := by omega
    exact toNat_and_FE _
  split
  · obtain rfl : k = 1 := by omega
    exact toNat_or_1 _
  split
  · obtain rfl : k = 2 := by omega
    exact toNat_and_FE _
  split
  · obtain rfl : k = 3 := by omega
    exact toNat_or_1 _
  split
  · obtain rfl : k = 4 := by omega
    rfl
  split
  · obtain rfl : k = 5 := by omega
    rfl
  split
  · obtain rfl : k = 6 := by omega
    rfl
  · obtain rfl : k = 7 := by omega
    rfl

theorem chrOffset_mmc3 (c : Cart) (r : Mmc3) {a k : Nat} (h : a < 0x2000)
    (hk : k = if r.bankSelect.getLsbD 7 then (a / 1024 + 4) % 8 else a / 1024) :
    chrOffset c (.mmc3 r) a = mmc3WindowBank r k % (c.chrLen / 1024) * 1024 + a % 1024 := by
  unfold chrOffset
  dsimp only
  cases hswap : r.bankSelect.getLsbD 7
  · rw [hswap, if_neg (by decide)] at hk
    rw [if_neg (by decide), Nat.xor_zero, mmc3ChrBank_eq r h hk]
  · rw [hswap, if_pos rfl] at hk
    rw [if_pos rfl, xor_1000_eq h, mmc3ChrBank_eq r (k := k) (Nat.mod_lt _ (by decide)) (by omega)]

/-! ### The mirroring of each board (rules R425, R444, R456) -/

theorem mmc1Mirroring_eq (r : Mmc1) : mmc1Mirroring r =
    if r.control.toNat % 4 = 0 then .singleLow
    else if r.control.toNat % 4 = 1 then .singleHigh
    else if r.control.toNat % 4 = 2 then .vertical
    else .horizontal := by
  have hlow : (r.control &&& 3#5).toNat = r.control.toNat % 4 := by
    rw [toNat_and_field 0 2 rfl]
    omega
  simp only [mmc1Mirroring, ← BitVec.toNat_inj, hlow]
  rfl

theorem mmc3Mirroring_eq (c : Cart) (r : Mmc3) : mmc3Mirroring c r =
    if c.mirroring = .fourScreen then .fourScreen
    else if r.mirror.toNat = 0 then .vertical else .horizontal := by
  simp only [mmc3Mirroring, ← BitVec.toNat_inj]
  rfl

/-- Settles O50: the CHR windows, the nametable pages and the palette by the three ranges of `ppuPeek`. -/
theorem ppuAddressSpace : Obligations.PpuAddressSpace := by
  intro c m p a
  refine ⟨fun hchr => ⟨?_, fun r hm => ?_, fun r hm k bank hk hbank => ?_⟩, fun hlo hhi n page hn hpage => ?_, fun h => ?_,
    ?_, fun r => ?_, fun r => ?_⟩
  · rintro rfl
    exact ppuPeek_of_chr hchr c _ p
  · rw [ppuPeek_of_chr hchr, hm, chrOffset, mmc1ChrOffset_eq]
  · have hwindow : bank = mmc3WindowBank r k := hbank
    rw [ppuPeek_of_chr hchr, hm, chrOffset_mmc3 c r hchr hk, hwindow]
  · have hpage' : page = nametablePage (mapperMirroring c m) n := hpage
    rw [ppuPeek_of_nametable hlo hhi, ntIndex, hpage', hn]
  · rw [ppuPeek_of_palette h, palIndex_eq_mirrors]
  · rw [mapperMirroring]
    cases c.mirroring <;> rfl
  · rw [mapperMirroring, mmc1Mirroring_eq]
    have hlt : r.control.toNat % 4 < 4 := Nat.mod_lt _ (by decide)
    generalize r.control.toNat % 4 = n at *
    interval_cases n <;> rfl
  · rw [mapperMirroring, mmc3Mirroring_eq]
    cases c.mirroring <;> rfl

end Sys2Proof.Machine
end

section
/-! PROOFS. Decoding gives back what `encode` wrote, and the two forms of the opcode table (spec/30_encoding.md rules R100
to R106). -/

namespace Sys2Proof

/-- What an entry of the decode table makes of the operand bytes that its format has, the others being blank. -/
def makeFromUsed (b c : Byte) (make : Byte → Byte → Instr) : Instr :=
  let n := (make b c).operand.mode.bytes
  make (if n = 1 then 0#8 else b) (if n = 3 then c else 0#8)

/-- An entry of the decode table looks at the operand bytes that its format has, and at no other. -/
theorem decodeTable_makeFromUsed (b c : Byte) :
    decodeTable.map (makeFromUsed b c) = decodeTable.map fun make => make b c := by
  simp only [decodeTable, List.map_append]
  rfl

/-- So does the decoding of an opcode. -/
theorem decodeOp_unused (op b c : Byte) :
    decodeOp op (if (decodeRow op).mode.bytes = 1 then 0#8 else b) (if (decodeRow op).mode.bytes = 3 then c else 0#8) =
      decodeOp op b c := by
  have hmode : (decodeRow op).mode = (decodeOp op b c).operand.mode := by
    obtain ⟨hmode, -⟩ := Laws.rowShape (decodeOp op b c)
    rw [hmode, Instr.row, opcode_decodeOp]
  rw [hmode]
  calc makeFromUsed b c (decodeTable.getD op.toNat fun _ _ => .nop)
    _ = (decodeTable.map (makeFromUsed b c)).getD op.toNat .nop := (List.getD_map _ _ _).symm
    _ = decodeOp op b c := by rw [decodeTable_makeFromUsed, ← apply_decodeOp fun i => i]

/-- A list that begins with an opcode and the operand bytes that its format has decodes to the instruction they make. -/
theorem decode_operandBytes (op b c : Byte) (rest : List Byte) :
    decode (op :: ([b, c].take ((decodeRow op).mode.bytes - 1) ++ rest)) = .ok (decodeOp op b c, rest) := by
  have hmem := (decodeRow op).mode.bytes_mem
  have hunused := decodeOp_unused op b c
  simp only [List.mem_cons, List.not_mem_nil, or_false] at hmem
  obtain hn | hn | hn := hmem
  all_goals
    rw [hn] at hunused
    simp only [decode, hn]
    rw [← hunused]
    rfl

/-- Settles O2: every instruction is what its opcode makes of two bytes, and `encode` writes as many of them as the decoder
reads. -/
theorem encodeThenDecodeGivesTheInstructionBack : Obligations.EncodeThenDecodeGivesTheInstructionBack := by
  intro i rest
  obtain ⟨-, -, b, c, hi⟩ := Laws.rowShape i
  rw [hi, encode_decodeOp]
  exact decode_operandBytes _ b c rest

/-! ### Words written out, and the two forms of the opcode table -/

/-- Settles O1: twelve closed decodings, one by one. -/
theorem sampleWordsDecode : Obligations.SampleWordsDecode := by
  unfold Obligations.SampleWordsDecode
  repeat' apply And.intro
  all_goals rfl

/-- Every byte value is the opcode of a form of the rules R150 to R278. -/
theorem opcode_mem_formsOfRule :
    ∀ op : Byte, op ∈ ((List.range' 150 129).flatMap Machine.formsOfRule).map (·.opcode) := by decide

/-- Settles O4: the forms of each rule against the rows of their opcodes, rule by rule; and the opcodes that the rules
list. -/
theorem tableByRuleAgreesWithTableByOpcode : Obligations.TableByRuleAgreesWithTableByOpcode := by
  refine ⟨fun r _ => ?_, fun op => ?_⟩
  · unfold Machine.formsOfRule
    split
    case h_82 => exact fun _ h => absurd h List.not_mem_nil
    all_goals decide
  · obtain ⟨f, hf, rfl⟩ := List.mem_map.mp (opcode_mem_formsOfRule op)
    obtain ⟨r, hr, hf⟩ := List.mem_flatMap.mp hf
    exact ⟨r, by rw [List.mem_range'_1] at hr; omega, f, hf, rfl⟩

end Sys2Proof
end

section
/-! PROOFS. What a step answers and what it leaves alone, whatever it runs: the host's fields, the construction parameters and
the buttons, the drain, and the actions of a boundary (spec/63_io_and_scheduler.md section 3, 70_reset_and_hazards.md). -/

namespace Sys2Proof.Machine

/-! ### The buttons, the host's list and the parameters, through every access -/

/-- The fields that only the host writes. -/
structure SameHostSide (s t : State) : Prop where
  buttons0 : t.ctl0.buttons = s.ctl0.buttons
  buttons1 : t.ctl1.buttons = s.ctl1.buttons
  host : t.host = s.host
  params : t.params = s.params

theorem SameHostSide.refl (s : State) : SameHostSide s s := ⟨rfl, rfl, rfl, rfl⟩

theorem SameHostSide.trans {s t u : State} (h : SameHostSide s t) (k : SameHostSide t u) : SameHostSide s u :=
  ⟨k.buttons0.trans h.buttons0, k.buttons1.trans h.buttons1, k.host.trans h.host, k.params.trans h.params⟩

@[simp] theorem Controller.clocked_buttons (c : Controller) : c.clocked.buttons = c.buttons := by
  unfold Controller.clocked
  split <;> rfl

@[simp] theorem Controller.clocked_strobe (c : Controller) : c.clocked.strobe = c.strobe := by
  unfold Controller.clocked
  split <;> rfl

/-- A read touches a controller only by clocking it. -/
theorem busRead_controllers (a : Addr) (s : State) :
    ((busRead a s).2.ctl0 = s.ctl0 ∨ (busRead a s).2.ctl0 = s.ctl0.clocked) ∧
      ((busRead a s).2.ctl1 = s.ctl1 ∨ (busRead a s).2.ctl1 = s.ctl1.clocked) := by
  unfold busRead busReadRaw
  split
  · exact ⟨.inl rfl, .inl rfl⟩
  split
  · unfold ppuRegRead
    split
    · exact ⟨.inl rfl, .inl rfl⟩
    · exact ⟨.inl rfl, .inl rfl⟩
    · rw [readData_eq rfl]
      exact ⟨.inl rfl, .inl rfl⟩
    · exact ⟨.inl rfl, .inl rfl⟩
  split
  · unfold ioRead
    split
    · exact ⟨.inr rfl, .inl rfl⟩
    split
    · exact ⟨.inl rfl, .inr rfl⟩
    · exact ⟨.inl rfl, .inl rfl⟩
  split <;> exact ⟨.inl rfl, .inl rfl⟩

theorem busRead_sameHostSide (a : Addr) (s : State) : SameHostSide s (busRead a s).2 := by
  obtain ⟨h0, h1⟩ := busRead_controllers a s
  refine ⟨?_, ?_, busRead_host a s, busRead_params a s⟩
  · rcases h0 with h | h <;> simp [h]
  · rcases h1 with h | h <;> simp [h]

/-- Everything a write of a PPU register can do: the registers, the latches and the memories of the PPU, the mapper through
a notification, and CHR RAM. -/
theorem ppuRegWrite_writes (n : Nat) (b : Byte) (s : State) :
    ∃ ctrl mask oamaddr t x w v vram oam palette m chr, ppuRegWrite n b s =
      { s with
        ppu := { s.ppu with ctrl := ctrl, mask := mask, oamaddr := oamaddr, t := t, x := x, w := w, v := v, vram := vram,
                            oam := oam, palette := palette }
        mapper := m
        cart := { s.cart with chr := chr } } := by
  unfold ppuRegWrite
  split
  case h_5 => unfold writeScroll; split <;> exact ⟨_, _, _, _, _, _, _, _, _, _, _, _, rfl⟩
  case h_6 => unfold writeAddr; split <;> exact ⟨_, _, _, _, _, _, _, _, _, _, _, _, rfl⟩
  case h_7 =>
    rw [writeData_eq rfl]
    dsimp only
    split
    · exact ⟨_, _, _, _, _, _, _, _, _, _, _, _, rfl⟩
    · split <;> exact ⟨_, _, _, _, _, _, _, _, _, _, _, _, rfl⟩
  all_goals exact ⟨_, _, _, _, _, _, _, _, _, _, _, _, rfl⟩

theorem dmaCopy_sameHostSide (page : Byte) (s : State) : SameHostSide s (dmaCopy page s) :=
  dmaCopy_induction (SameHostSide s) page (fun a t h => h.trans (busRead_sameHostSide a t))
    (fun _ _ _ h => ⟨h.buttons0, h.buttons1, h.host, h.params⟩) s (.refl s)

theorem busWrite_sameHostSide (a : Addr) (v : Byte) (s : State) : SameHostSide s (busWrite a v s) := by
  refine busWrite_induction (SameHostSide s) a v ?_ ?_ ?_ ?_ ?_ ?_ s (.refl s)
  · exact fun t b h => ⟨h.buttons0, h.buttons1, h.host, h.params⟩
  · exact fun t i b _ h => ⟨h.buttons0, h.buttons1, h.host, h.params⟩
  · intro n t h
    obtain ⟨_, _, _, _, _, _, _, _, _, _, _, _, hreg⟩ := ppuRegWrite_writes n v t
    rw [hreg]
    exact ⟨h.buttons0, h.buttons1, h.host, h.params⟩
  · intro t h
    have k := dmaCopy_sameHostSide v t
    exact h.trans ⟨k.buttons0, k.buttons1, k.host, k.params⟩
  · exact fun t h => ⟨h.buttons0, h.buttons1, h.host, h.params⟩
  · exact fun t h => ⟨h.buttons0, h.buttons1, h.host, h.params⟩

theorem sameHostSide_closed (s : State) : StepClosed (SameHostSide s) where
  read a t h := h.trans (busRead_sameHostSide a t)
  write a v t h := h.trans (busWrite_sameHostSide a v t)
  cpu _ _ _ h := ⟨h.buttons0, h.buttons1, h.host, h.params⟩
  charge _ _ h := ⟨h.buttons0, h.buttons1, h.host, h.params⟩

/-! ### The action of a boundary, once the host has acted -/

/-- A property of the accesses that the acknowledgement of an NMI and the reset of the PPU keep as well is kept by the action
of a boundary. -/
theorem StepClosed.acted {P : State → Prop} (H : StepClosed P) (hack : ∀ s, P s → P { s with nmiPending := false })
    (hreset : ∀ s, P s → P { s with ppu := s.ppu.afterReset }) {s u : State} (ha : Acted s u) (h : P s) : P u := by
  rcases ha with rfl | ha | ⟨-, ha⟩
  · have hcpu := H.cpu (fun c => Cpu.put .I true { c with sp := c.sp - 3#8 }) s
      (fun _ => statusOk_putFlag (by decide) (by decide) true) h
    exact H.charge 7 _ (hreset _ (hack _ (H.loadPc _ _ hcpu)))
  · unfold poll at ha
    split at ha
    · cases ha
      exact H.charge 7 _ (H.takeException _ _ _ _ (hack s h))
    split at ha
    · cases ha
      exact H.charge 7 _ (H.takeException _ _ _ _ h)
    · cases ha
  · exact H.exec ha (H.fetchInstr s h)

theorem acted_sameHostSide {s u : State} (h : Acted s u) : SameHostSide s u :=
  (sameHostSide_closed s).acted (fun _ h => ⟨h.buttons0, h.buttons1, h.host, h.params⟩)
    (fun _ h => ⟨h.buttons0, h.buttons1, h.host, h.params⟩) h (.refl s)

theorem settle_sameHostSide (c : Nat) (s : State) : SameHostSide s (settle c s) := by
  obtain ⟨v, h⟩ := State.ticks_frame (3 * (s.cyc - c)) s
  have h : settle c s = s.withVideo v := h
  rw [h]
  exact ⟨rfl, rfl, rfl, rfl⟩

/-! ### The host's turn -/

@[simp] theorem State.afterHost_host (s : State) : s.afterHost.host = s.host.tail := by
  unfold State.afterHost State.takeTurn
  split
  · next h => rw [h]; exact h
  · next h => rw [h]; rfl

@[simp] theorem State.afterHost_params (s : State) : s.afterHost.params = s.params := by
  unfold State.afterHost State.takeTurn
  split <;> rfl

theorem Controller.setButtons_buttons (b : Option Byte) (c : Controller) :
    (c.setButtons b).buttons = b.getD c.buttons := by
  cases b <;> rfl

theorem State.afterHost_buttons (s : State) :
    s.afterHost.ctl0.buttons = s.takeTurn.1.buttons0.getD s.ctl0.buttons ∧
      s.afterHost.ctl1.buttons = s.takeTurn.1.buttons1.getD s.ctl1.buttons := by
  unfold State.afterHost State.takeTurn
  split <;> exact ⟨Controller.setButtons_buttons _ _, Controller.setButtons_buttons _ _⟩

/-- Settles O10: the action of a step and its drain leave the host's side as the host's turn left it. -/
theorem onlyTheHostWritesButtons : Obligations.OnlyTheHostWritesButtons := by
  intro s t h
  obtain ⟨-, u, hu, rfl⟩ := step_next h
  have k := (acted_sameHostSide hu).trans (settle_sameHostSide s.afterHost.cyc u)
  obtain ⟨hbuttons0, hbuttons1⟩ := s.afterHost_buttons
  exact ⟨k.buttons0.trans hbuttons0, k.buttons1.trans hbuttons1, k.host.trans s.afterHost_host,
    k.params.trans s.afterHost_params⟩

/-! ### What a step answers -/

/-- An action answers a next state, or is an unstable opcode under the policy `refuse`. -/
theorem act_next_or_unstable (reset : Bool) (s : State) :
    (∃ t, act reset s = .next t) ∨
      (∃ k, act reset s = .refused (.unstableOpcode k)) ∧ s.params.unstablePolicy = .refuse := by
  cases reset
  case true => exact .inl ⟨_, rfl⟩
  cases hpoll : poll s with
  | some u => exact .inl ⟨_, by simp only [act, hpoll, Bool.false_eq_true, if_false]; rfl⟩
  | none =>
    have hparams := ((sameHostSide_closed s).fetchInstr s (.refl s)).params
    rw [act_of_poll_none hpoll]
    rcases exec_next_or_unstable (fetchInstr s).1 (fetchInstr s).2 with ⟨t, h⟩ | ⟨k, h, hpolicy⟩
    · exact .inl ⟨_, by rw [h]; rfl⟩
    · exact .inr ⟨⟨k, by rw [h]; rfl⟩, hparams ▸ hpolicy⟩

theorem step_of_stop {s : State} (h : s.takeTurn.1.stop = true) : step s = .refused .hostStopped := by
  simp [step, turn, h]

/-- A step answers a next state, or the host stops, or it is an unstable opcode under the policy `refuse`. -/
theorem step_answers (s : State) :
    (∃ t, step s = .next t) ∨ (step s = .refused .hostStopped ∧ s.takeTurn.1.stop = true) ∨
      (∃ k, step s = .refused (.unstableOpcode k)) ∧ s.params.unstablePolicy = .refuse := by
  cases hstop : s.takeTurn.1.stop with
  | true => exact .inr (.inl ⟨step_of_stop hstop, rfl⟩)
  | false =>
    rw [step_eq_act hstop, ← s.afterHost_params]
    rcases act_next_or_unstable s.takeTurn.1.reset s.afterHost with h | h
    · exact .inl h
    · exact .inr (.inr h)

/-- Settles O7: the three answers of a step, none of which is a fault. -/
theorem everyStepAnswersUnlessTheHostStops : Obligations.EveryStepAnswersUnlessTheHostStops := by
  intro s
  refine ⟨step_of_stop, step_progress s, (nomatch ·), fun r hr => ?_⟩
  rcases step_answers s with ⟨t, h⟩ | ⟨-, hstop⟩ | ⟨-, hpolicy⟩
  · rw [h] at hr
    cases hr
  · exact .inl hstop
  · exact .inr hpolicy

theorem State.takeTurn_stop_of_hostNeverStops {s : State} (h : s.hostNeverStops = true) :
    s.takeTurn.1.stop = false := by
  unfold State.takeTurn
  unfold State.hostNeverStops at h
  split
  · rfl
  · next hhost =>
    rw [hhost, List.all_cons, Bool.and_eq_true, Bool.not_eq_true'] at h
    exact h.1

/-- The two premises of a run that goes on hold again after each of its steps. -/
theorem step_goesOn {s : State} (hpolicy : s.params.unstablePolicy = .nop) (hhost : s.hostNeverStops = true) :
    ∃ t, step s = .next t ∧ t.params.unstablePolicy = .nop ∧ t.hostNeverStops = true := by
  obtain ⟨t, ht⟩ := step_progress s (State.takeTurn_stop_of_hostNeverStops hhost) hpolicy
  obtain ⟨-, -, htail, hparams⟩ := onlyTheHostWritesButtons s t ht
  refine ⟨t, ht, by rw [hparams, hpolicy], ?_⟩
  unfold State.hostNeverStops at hhost ⊢
  rw [htail]
  exact List.all_eq_true.mpr fun turn hturn => List.all_eq_true.mp hhost turn (List.mem_of_mem_tail hturn)

/-- Settles O8: every state that the machine passes through has the premises, by induction on the run. -/
theorem runsGoOnUntilTheHostStops : Obligations.RunsGoOnUntilTheHostStops := by
  intro s hpolicy hhost
  refine ⟨step_goesOn hpolicy hhost, fun t ht => ?_⟩
  have hpremises : t.params.unstablePolicy = .nop ∧ t.hostNeverStops = true := by
    induction ht with
    | start => exact ⟨hpolicy, hhost⟩
    | step _ hstep ih =>
      obtain ⟨u, hu, hkept⟩ := step_goesOn ih.1 ih.2
      rw [hstep] at hu
      cases hu
      exact hkept
  obtain ⟨u, hu, -⟩ := step_goesOn hpremises.1 hpremises.2
  exact ⟨u, hu⟩

end Sys2Proof.Machine
end

section
/-! PROOFS. Reset, the drain, a quiet step, and the invariants of a step that no memory has a part in: the clock, the
position and the fixed status bits. -/

namespace Sys2Proof.Machine

/-! ### Reset (rule R501) -/

/-- The reset sequence, in full. -/
theorem resetSequence_eq (s : State) : resetSequence s =
    { s with
      cpu := { s.cpu with sp := s.cpu.sp - 3#8, p := s.cpu.p ||| 0x04#8, pc := s.vectorAt 0xFFFC#16 }
      busLast := hiByte (s.vectorAt 0xFFFC#16)
      nmiPending := false
      ppu := { s.ppu with ctrl := 0#8, mask := 0#8, w := false, x := 0#3, t := 0#15, readbuf := 0#8 }
      cyc := s.cyc + 7 } := by
  unfold resetSequence
  dsimp only
  rw [resetVector, loadPc_vector (by decide) (by decide)]
  rfl

theorem settle_of_cyc {c n : Nat} {s : State} (h : s.cyc = c + n) : settle c s = s.drain n := by
  rw [settle, h, Nat.add_sub_cancel_left]

/-- Settles O14: the turn's action is the reset sequence, which charges 7 cycles. -/
theorem hostResetRunsTheResetSequence : Obligations.HostResetRunsTheResetSequence := by
  intro s h rest hhost hstop hreset b
  have hturn : s.takeTurn = (h, { s with host := rest }) := by rw [State.takeTurn, hhost]
  have hb : s.afterHost = b := by rw [State.afterHost, hturn]
  rw [step_eq_act (by rwa [hturn]), hturn, hreset, hb]
  change Host.Outcome.next (settle b.cyc (resetSequence b)) = _
  rw [resetSequence_eq, settle_of_cyc rfl]

/-! ### The drain (rule R484) -/

/-- Settles O9: `n` ticks keep what one tick keeps once the position has advanced. -/
theorem drainChangesOnlyTheVideoSide : Obligations.DrainChangesOnlyTheVideoSide := by
  intro cost s
  refine ⟨State.ticks_ticks _ s, (s.drain cost).video, ?_, ?_⟩
  · obtain ⟨v, h⟩ := State.ticks_frame (3 * cost) s
    rw [State.drain, h]
    rfl
  · refine State.ticks_induction (fun u => u.ppu.ctrl = s.ppu.ctrl ∧ u.ppu.mask = s.ppu.mask ∧ u.ppu.t = s.ppu.t ∧
      u.ppu.x = s.ppu.x ∧ u.ppu.w = s.ppu.w ∧ u.ppu.readbuf = s.ppu.readbuf ∧ u.ppu.vram = s.ppu.vram ∧
      u.ppu.oam = s.ppu.oam ∧ u.ppu.palette = s.ppu.palette) (fun u hu => ?_) _ s
      ⟨rfl, rfl, rfl, rfl, rfl, rfl, rfl, rfl, rfl⟩
    obtain ⟨_, hctrl, hmask, hvram, hoam, hpalette, _, ht, hx, hw, hreadbuf⟩ := advance_kept u.ppu
    have k := tick_kept u.cart u.params.a12FilterDots u.video
    obtain ⟨h1, h2, h3, h4, h5, h6, h7, h8, h9⟩ := hu
    exact ⟨(k.ctrl.trans hctrl).trans h1, (k.mask.trans hmask).trans h2, (k.t.trans ht).trans h3, (k.x.trans hx).trans h4,
      (k.w.trans hw).trans h5, (k.readbuf.trans hreadbuf).trans h6, (k.vram.trans hvram).trans h7,
      (k.oam.trans hoam).trans h8, (k.palette.trans hpalette).trans h9⟩

/-! ### A quiet step (rule R482) -/

theorem State.afterHost_of_idle {s : State} (h : s.host = []) : s.takeTurn.1 = {} ∧ s.afterHost = s := by
  unfold State.afterHost State.takeTurn
  rw [h]
  refine ⟨rfl, ?_⟩
  simp [applyHost, Controller.setButtons]

theorem fetchBytes_length (n : Nat) (s : State) : (fetchBytes n s).1.length = n := by
  induction n generalizing s with
  | zero => rfl
  | succ n ih => simp [fetchBytes, ih]

/-- Where the bytes at PC are exactly one instruction, fetching it is fetching them. -/
theorem fetchInstr_of_decode {n : Nat} {s : State} {i : Instr} (h : decode (fetchBytes n s).1 = .ok (i, [])) :
    fetchInstr s = (i, (fetchBytes n s).2) := by
  cases n with
  | zero => cases h
  | succ n =>
    have hlist : (fetchBytes (n + 1) s).1 = (fetch8 s).1 :: (fetchBytes n (fetch8 s).2).1 := rfl
    rw [hlist] at h
    obtain ⟨b, c, rfl, hl⟩ := exists_decodeOp_of_decode h
    have hlen := congrArg List.length hl
    have hunused := decodeOp_unused (fetch8 s).1 b c
    have hmem := (decodeRow (fetch8 s).1).mode.bytes_mem
    simp only [List.mem_cons, List.not_mem_nil, or_false] at hmem
    rw [fetchBytes_length] at hlen
    obtain hn | hn | hn := hmem
    all_goals
      rw [hn] at hl hlen hunused
      subst hlen
      cases hl
      rw [← hunused]
      simp only [fetchInstr, hn]
      rfl

/-- Settles O5. -/
theorem stepRunsDecodedInstruction : Obligations.StepRunsDecodedInstruction := by
  intro s n i hquiet hdecode
  simp only [State.quiet, Bool.and_eq_true, Bool.not_eq_true', List.isEmpty_iff] at hquiet
  obtain ⟨⟨hhost, hnmi⟩, hirq⟩ := hquiet
  obtain ⟨hturn, hafter⟩ := State.afterHost_of_idle hhost
  have hpoll : poll s = none := by simp [poll, hnmi, hirq]
  rw [step_eq_act (by rw [hturn]), hturn, hafter, act_of_poll_none hpoll, fetchInstr_of_decode hdecode]

/-! ### The fixed status bits -/

/-- Settles O57: the register operations keep Break and Unused (`StatusOk`), and nothing else writes P. -/
theorem stepKeepsTheFixedStatusBits : Obligations.StepKeepsTheFixedStatusBits := by
  intro s t hs h
  have closed : TurnClosed State.statusWf :=
    { read := fun a u hu => by rw [State.statusWf, busRead_cpu]; exact hu
      write := fun a v u hu => by rw [State.statusWf, busWrite_cpu]; exact hu
      cpu := fun f u hf hu => hf u.cpu hu
      charge := fun _ _ hu => hu
      ack := fun _ hu => hu
      host := fun u hu => by unfold State.afterHost State.takeTurn; split <;> exact hu
      ppuReset := fun _ hu => hu }
  exact closed.step (fun _ hu => hu) h hs

/-! ### The clock and the position -/

/-- The position of the PPU's dot, and the count of its ticks. -/
structure SamePosition (p q : Ppu) : Prop where
  scanline : q.scanline = p.scanline
  dot : q.dot = p.dot
  frame : q.frame = p.frame
  ticks : q.ticks = p.ticks

theorem SamePosition.trans {p q r : Ppu} (h : SamePosition p q) (k : SamePosition q r) : SamePosition p r :=
  ⟨k.scanline.trans h.scanline, k.dot.trans h.dot, k.frame.trans h.frame, k.ticks.trans h.ticks⟩

theorem busRead_samePosition (a : Addr) (s : State) : SamePosition s.ppu (busRead a s).2.ppu := by
  obtain ⟨_, _, _, _, h⟩ := busRead_ppu a s
  rw [h]
  exact ⟨rfl, rfl, rfl, rfl⟩

/-- No write moves the position: only a tick does. -/
theorem busWrite_samePosition (a : Addr) (v : Byte) (s : State) : SamePosition s.ppu (busWrite a v s).ppu := by
  refine busWrite_induction (fun t => SamePosition s.ppu t.ppu) a v (fun _ _ h => h) (fun _ _ _ _ h => h) ?_ ?_
    (fun _ h => h) (fun _ h => h) s ⟨rfl, rfl, rfl, rfl⟩
  · intro n t h
    obtain ⟨_, _, _, _, _, _, _, _, _, _, _, _, hreg⟩ := ppuRegWrite_writes n v t
    rw [hreg]
    exact ⟨h.scanline, h.dot, h.frame, h.ticks⟩
  · exact fun t h => dmaCopy_induction (fun u => SamePosition s.ppu u.ppu) v
      (fun a u hu => hu.trans (busRead_samePosition a u)) (fun _ _ _ hu => ⟨hu.scanline, hu.dot, hu.frame, hu.ticks⟩) t h

/-- The action of a boundary moves neither the position nor the tick count, and its cost is not negative. -/
def ActedClock (s t : State) : Prop := SamePosition s.ppu t.ppu ∧ s.cyc ≤ t.cyc

theorem acted_clock {s u : State} (h : Acted s u) : ActedClock s u := by
  have closed : StepClosed (ActedClock s) :=
    { read := fun a t ht => ⟨ht.1.trans (busRead_samePosition a t), by rw [busRead_cyc]; exact ht.2⟩
      write := fun a v t ht =>
        ⟨ht.1.trans (busWrite_samePosition a v t), by rw [busWrite_cyc]; exact ht.2.trans (Nat.le_add_right _ _)⟩
      cpu := fun _ _ _ ht => ht
      charge := fun n t ht => ⟨ht.1, ht.2.trans (Nat.le_add_right _ _)⟩ }
  exact closed.acted (fun _ ht => ht) (fun _ ht => ⟨⟨ht.1.scanline, ht.1.dot, ht.1.frame, ht.1.ticks⟩, ht.2⟩) h
    ⟨⟨rfl, rfl, rfl, rfl⟩, Nat.le_refl _⟩

theorem State.afterHost_clock (s : State) : SamePosition s.ppu s.afterHost.ppu ∧ s.afterHost.cyc = s.cyc := by
  unfold State.afterHost State.takeTurn
  split <;> exact ⟨⟨rfl, rfl, rfl, rfl⟩, rfl⟩

/-- The position as a number of ticks (rule R364). -/
theorem advance_position {p : Ppu} (hs : p.scanline < 262) (hd : p.dot < 341) :
    (advance p).scanline < 262 ∧ (advance p).dot < 341 ∧
      89342 * (advance p).frame + 341 * (advance p).scanline + (advance p).dot =
        89342 * p.frame + 341 * p.scanline + p.dot + 1 := by
  unfold advance
  split
  · split
    · dsimp only; omega
    · dsimp only; omega
  · dsimp only; omega

theorem positionWf_tick {s : State} (h : s.positionWf) : s.tick.positionWf := by
  have k := tick_kept s.cart s.params.a12FilterDots s.video
  obtain ⟨hs, hd, ht⟩ := h
  obtain ⟨hs', hd', ht'⟩ := advance_position hs hd
  obtain ⟨hticks, -⟩ := advance_kept s.ppu
  unfold State.positionWf
  rw [State.tick, State.withVideo_ppu, k.scanline, k.dot, k.frame, k.ticks]
  exact ⟨hs', hd', by rw [State.video_ppu, ht', ht, hticks]⟩

/-- Settles O56: the action leaves the PPU's count alone, and the drain adds three ticks for each cycle charged; each tick
keeps the position on the grid. -/
theorem stepKeepsTheClockAndThePosition : Obligations.StepKeepsTheClockAndThePosition := by
  refine ⟨fun s t hs h => ?_, fun s t hs h => ?_⟩
  · obtain ⟨-, u, hu, rfl⟩ := step_next h
    obtain ⟨hpos, hcyc⟩ := acted_clock hu
    obtain ⟨hhost, hhostCyc⟩ := s.afterHost_clock
    have hticks : u.ppu.ticks = 3 * s.cyc := (hpos.ticks.trans hhost.ticks).trans hs
    unfold State.clockWf settle State.drain
    rw [State.ticks_ticks, State.ticks_cyc, hticks]
    omega
  · obtain ⟨-, u, hu, rfl⟩ := step_next h
    obtain ⟨hpos, -⟩ := acted_clock hu
    have hpos := s.afterHost_clock.1.trans hpos
    refine State.ticks_induction State.positionWf (fun _ => positionWf_tick) _ u ?_
    rw [State.positionWf, hpos.scanline, hpos.dot, hpos.frame, hpos.ticks]
    exact hs

end Sys2Proof.Machine
end

section
/-! PROOFS. Accesses that meet no device, fetching through them, and effective addresses (spec/20_memory.md, 00_scope.md rule
R16, 40_addressing_modes.md). -/

namespace Sys2Proof.Machine

/-! ### Reads that meet no device register (rules R62, R64, R65, R68, R427) -/

/-- The byte a read of `a` returns where no device register answers: the stored byte, or the open bus. -/
def State.regionByte (s : State) (a : Addr) : Byte :=
  if a.toNat < 0x2000 then s.ram.read (a.toNat % 2048)
  else if a.toNat < 0x6000 then s.busLast
  else if a.toNat < 0x8000 then (if s.mapper.ramReadable then s.cart.prgram.read (a.toNat - 0x6000) else s.busLast)
  else s.cart.prg.read (prgOffset s.cart s.mapper a)

/-- The addresses outside the windows of the PPU's and the controllers' registers. -/
def noRegisterAt (a : Addr) : Prop := a.toNat < 0x2000 ∨ (0x4000 ≤ a.toNat ∧ a ≠ 0x4016#16 ∧ a ≠ 0x4017#16)

theorem busRead_of_noRegister {a : Addr} (h : noRegisterAt a) (s : State) :
    busRead a s = (s.regionByte a, { s with busLast := s.regionByte a }) := by
  have hraw : busReadRaw a s = (s.regionByte a, s) := by
    unfold State.regionByte
    rcases h with hram | ⟨hlo, h16, h17⟩
    · simp only [busReadRaw, hram, if_true, ramIndex]
    have h1 : ¬ a.toNat < 0x2000 := by omega
    have h2 : ¬ a.toNat < 0x4000 := by omega
    simp only [busReadRaw, h1, h2, if_false]
    by_cases hio : a.toNat < 0x4018
    · simp only [hio, if_true, ioRead, h16, h17, if_false, show a.toNat < 0x6000 by omega]
    by_cases hgap : a.toNat < 0x4020
    · simp only [hio, hgap, if_true, if_false, show a.toNat < 0x6000 by omega]
    simp only [hio, hgap, if_false, mapperCpuRead]
  rw [busRead, hraw]

/-- The writes that nothing takes (rules R68, R427, R471, R477). -/
theorem busWrite_absorbed {a : Addr} (hlo : 0x4000 ≤ a.toNat) (hhi : a.toNat < 0x6000) (h14 : a ≠ 0x4014#16)
    (h16 : a ≠ 0x4016#16) (v : Byte) (s : State) : busWrite a v s = { s with busLast := v } := by
  have h1 : ¬ a.toNat < 0x2000 := by omega
  have h2 : ¬ a.toNat < 0x4000 := by omega
  have h3 : ¬ 0x8000 ≤ a.toNat := by omega
  have h4 : ¬ (0x6000 ≤ a.toNat ∧ a.toNat < 0x8000 ∧ s.mapper.ramWritable = true) := by omega
  simp only [busWrite, h1, h2, if_false, ioWrite, h14, h16, cartCpuWrite, h4, mapperCpuWrite, h3, ite_self]

/-- Settles O36: reads by region, and the absorbed writes. -/
theorem readsWithoutSideEffects : Obligations.ReadsWithoutSideEffects := by
  refine ⟨?_, rfl, fun _ => rfl, fun _ => rfl, fun a s v hlo hhi h14 h16 => busWrite_absorbed hlo hhi h14 h16 v s⟩
  rintro a s _ h rfl
  exact busRead_of_noRegister h s

/-! ### Fetching from memory (rules R16, R83) -/

/-- A read of a stored byte only drives the bus with it. -/
theorem busRead_of_plain {a : Addr} {s : State} {b : Byte} (hplain : s.plainAt a = true) (hbyte : s.byteAt a = some b) :
    busRead a s = (b, { s with busLast := b }) := by
  simp only [State.plainAt, Bool.or_eq_true, Bool.and_eq_true, decide_eq_true_eq] at hplain
  have hregister : noRegisterAt a := by
    by_cases hram : a.toNat < 0x2000
    · exact .inl hram
    · refine .inr ⟨by omega, ?_, ?_⟩ <;>
      · rintro rfl
        simp at hplain
  have hregion : s.regionByte a = b := by
    unfold State.regionByte
    unfold State.byteAt at hbyte
    split at hbyte
    · next hram => rw [if_pos hram]; exact Option.some.inj hbyte
    · next hram =>
      have habsent : ¬ a.toNat < 0x6000 := by omega
      rw [if_neg habsent] at hbyte
      rw [if_neg hram, if_neg habsent]
      split at hbyte
      · next hprgRam =>
        rw [if_pos hprgRam, if_pos (by simpa [hram, habsent, Nat.not_le.mpr hprgRam] using hplain.resolve_left (by omega) |>.2)]
        exact Option.some.inj hbyte
      · next hrom =>
        rw [if_neg hrom]
        exact Option.some.inj hbyte
  rw [busRead_of_noRegister hregister, hregion]

/-- Settles O6: each fetch reads its byte and leaves the bytes and their readability as they were, by induction on the
bytes. -/
theorem fetchReadsTheStoredBytes : Obligations.FetchReadsTheStoredBytes := by
  intro l
  induction l with
  | nil =>
    intro b s h
    obtain ⟨hplain, hbyte⟩ := h 0 (by simp)
    rw [BitVec.add_zero] at hplain hbyte
    simp only [List.length_nil, fetchBytes, fetch8, busRead_of_plain hplain hbyte]
    rfl
  | cons x l ih =>
    intro b s h
    obtain ⟨hplain, hbyte⟩ := h 0 (by simp)
    rw [BitVec.add_zero] at hplain hbyte
    have hfetch : fetch8 s = (x, { s with cpu := { s.cpu with pc := s.cpu.pc + 1#16 }, busLast := x }) := by
      rw [fetch8, busRead_of_plain hplain hbyte]
      rfl
    have hpc (k : Nat) : s.cpu.pc + 1#16 + BitVec.ofNat 16 k = s.cpu.pc + BitVec.ofNat 16 (k + 1) := by
      rw [BitVec.add_assoc, ← BitVec.ofNat_add, Nat.add_comm]
    have hrest := ih b (fetch8 s).2 (fun k hk => by
      have hnext := h (k + 1) (by simpa using hk)
      rw [hfetch]
      rw [← hpc] at hnext
      exact hnext)
    rw [List.length_cons, fetchBytes, hrest, hfetch]
    simp only [hpc]
    rfl

/-! ### Effective addresses (rules R134 to R141) -/

theorem pageCross_eq (a b : Addr) : pageCross a b = decide (a.toNat / 256 ≠ b.toNat / 256) := by
  rw [pageCross, page, page, ← hiByte_toNat, ← hiByte_toNat, Bool.eq_iff_iff, bne_iff_ne, decide_eq_true_eq, ne_eq, ne_eq,
    BitVec.toNat_inj]

theorem indexed_eq {base ea : Addr} {i : Byte} (h : ea = BitVec.ofNat 16 (base.toNat + i.toNat)) :
    indexed base i = ⟨ea, decide (ea.toNat / 256 ≠ base.toNat / 256)⟩ := by
  have hsum : base + i.setWidth 16 = ea := by
    rw [h, BitVec.ofNat_add, BitVec.ofNat_toNat, BitVec.ofNat_toNat, BitVec.setWidth_eq]
  rw [indexed, hsum, pageCross_eq]

theorem zpAddr_toNat (z : Byte) : (zpAddr z).toNat = z.toNat := by
  have hz := z.isLt
  rw [zpAddr, BitVec.toNat_setWidth]
  omega

/-- Indexing in page 0 wraps there. -/
theorem zpAddr_add (z i : Byte) : zpAddr (z + i) = BitVec.ofNat 16 ((z.toNat + i.toNat) % 256) := by
  apply BitVec.eq_of_toNat_eq
  rw [zpAddr_toNat, BitVec.toNat_add, BitVec.toNat_ofNat]
  omega

/-- A pointer in page 0 (rules R140, R141): two reads of RAM, low byte first, the second wrapping inside the page. -/
theorem busRead16_zeropage {z lo hi : Byte} {s : State} (hlo : lo = s.ram.read z.toNat)
    (hhi : hi = s.ram.read ((z.toNat + 1) % 256)) :
    busRead16 (zpAddr z) (zpAddr (z + 1#8)) s = (wordOf hi lo, { s with busLast := hi }) := by
  have hram (w : Byte) : (zpAddr w).toNat < 0x2000 := by
    have hw := w.isLt
    rw [zpAddr_toNat]
    omega
  have hindex (w : Byte) : ramIndex (zpAddr w) = w.toNat := by
    have hw := w.isLt
    rw [ramIndex, zpAddr_toNat]
    omega
  simp only [busRead16, busRead_of_ram (hram _), hindex, BitVec.toNat_add, hlo, hhi]
  rfl

/-- Settles O18: the indexed forms by `indexed_eq`, the pointers by `busRead16_zeropage`. -/
theorem effectiveAddresses : Obligations.EffectiveAddresses := by
  intro s z a
  refine ⟨rfl, ?_, ?_, rfl, fun ea h => ?_, fun ea h => ?_, fun lo hi hlo hhi => ?_, fun lo hi ea hlo hhi h => ?_⟩
  · rw [resolve, zpAddr_add]
  · rw [resolve, zpAddr_add]
  · rw [resolve, indexed_eq h]
  · rw [resolve, indexed_eq h]
  · have hpointer : (z + s.cpu.x).toNat = (z.toNat + s.cpu.x.toNat) % 256 := BitVec.toNat_add ..
    rw [resolve, busRead16_zeropage (lo := lo) (hi := hi) (by rw [hpointer, hlo]) (by rw [hpointer, hhi]; congr 1; omega)]
  · simp only [resolve, busRead16_zeropage hlo hhi, indexed_eq h]

/-! ### RTI after an interrupt entry (rule R309) -/

theorem read_stackStore_same {ram : Memory} (sp v : Byte) (hwf : ram.wf 2048 = true) :
    (stackStore sp v ram).read (256 + sp.toNat) = v := Memory.wf_read_write _ v hwf

theorem read_stackStore_other {ram : Memory} {sp sp' : Byte} (v : Byte) (h : sp' ≠ sp) :
    (stackStore sp v ram).read (256 + sp'.toNat) = ram.read (256 + sp'.toNat) :=
  Memory.read_write_other _ _ _ v fun hindex => h (BitVec.eq_of_toNat_eq (by omega))

theorem wf_stackStore {ram : Memory} (sp v : Byte) (h : ram.wf 2048 = true) : (stackStore sp v ram).wf 2048 = true :=
  Memory.wf_write _ v h (by have := sp.isLt; omega)

/-- The three bytes of an exception's frame, where they were pushed: the cells differ, also where SP wraps. -/
theorem read_exceptionFrame {ram : Memory} (sp : Byte) (ret : Addr) (status : Byte) (hwf : ram.wf 2048 = true) :
    (exceptionFrame sp ret status ram).read (256 + (sp - 2#8).toNat) = status ∧
      (exceptionFrame sp ret status ram).read (256 + (sp - 1#8).toNat) = loByte ret ∧
      (exceptionFrame sp ret status ram).read (256 + sp.toNat) = hiByte ret := by
  have hne1 : sp ≠ sp - 1#8 := by bv_omega
  have hne2 : sp ≠ sp - 2#8 := by bv_omega
  have hne12 : sp - 1#8 ≠ sp - 2#8 := by bv_omega
  have hwf1 := wf_stackStore sp (hiByte ret) hwf
  have hwf2 := wf_stackStore (sp - 1#8) (loByte ret) hwf1
  unfold exceptionFrame
  refine ⟨read_stackStore_same _ _ hwf2, ?_, ?_⟩
  · rw [read_stackStore_other _ hne12, read_stackStore_same _ _ hwf1]
  · rw [read_stackStore_other _ hne2, read_stackStore_other _ hne1, read_stackStore_same _ _ hwf]

/-- P as an interrupt pushes it and RTI pulls it (rule R28). -/
theorem pulled_pushed_status : ∀ p : Byte, StatusOk p →
    (((p &&& 0xEF#8) ||| 0x20#8) &&& 0xEF#8) ||| 0x20#8 = p := by
  unfold StatusOk
  decide

/-- Settles O17: RTI finds the frame of the entry. -/
theorem rtiUndoesInterruptEntry : Obligations.RtiUndoesInterruptEntry := by
  intro s vector hstatus hwf _
  refine ⟨_, execRti_eq _, ?_, rfl⟩
  obtain ⟨hp, hlo, hhi⟩ :=
    read_exceptionFrame s.cpu.sp s.cpu.pc ((s.cpu.p &&& 0xEF#8) ||| 0x20#8) hwf
  have hsp1 : s.cpu.sp - 3#8 + 1#8 = s.cpu.sp - 2#8 := by bv_omega
  have hsp2 : s.cpu.sp - 3#8 + 2#8 = s.cpu.sp - 1#8 := by bv_omega
  have hsp3 : s.cpu.sp - 3#8 + 3#8 = s.cpu.sp := by bv_omega
  simp only [State.entered, State.stackByte, hsp1, hsp2, hsp3, hp, hlo, hhi, pulled_pushed_status _ hstatus,
    wordOf_hiByte_loByte]

/-! ### Construction (rules R420, R421) -/

theorem boardOf_eq (id : Nat) : boardOf id =
    if id = 0 then some .nrom else if id = 1 then some .mmc1 else if id = 4 then some .mmc3 else none := by
  unfold boardOf
  split
  · rfl
  · rfl
  · rfl
  · next h0 h1 h4 => rw [if_neg h0, if_neg h1, if_neg h4]

theorem mod_eq_zero_iff_eq_mul_div (n k : Nat) : n % k = 0 ↔ n = k * (n / k) := by
  rw [← Nat.dvd_iff_mod_eq_zero, Nat.dvd_iff_div_mul_eq, Nat.mul_comm, eq_comm]

/-- Construction for a supported board, from an image whose byte lists are canonical, is a check of its two lengths. -/
theorem construct_of_board {cfg : Cfg} {b : Board} (hboard : boardOf cfg.cart.mapperId = some b)
    (hprg : cfg.cart.prg.wf cfg.cart.prgLen = true) (hchr : cfg.cart.chr.wf cfg.cart.chrLen = true) :
    construct cfg =
      if cfg.cart.prgLen = 16384 * (cfg.cart.prgLen / 16384) ∧ cfg.cart.chrLen = 8192 * (cfg.cart.chrLen / 8192) ∧
          cfg.cart.prgLen / 16384 ∈ b.prgUnits ∧ cfg.cart.chrLen / 8192 ∈ b.chrUnits then .ok (powerOnColumn cfg b)
      else .error .malformedRom := by
  simp only [construct, CartImage.check, hboard, hprg, hchr, List.contains_iff_mem, mod_eq_zero_iff_eq_mul_div, and_true]
  by_cases h : cfg.cart.prgLen = 16384 * (cfg.cart.prgLen / 16384) ∧ cfg.cart.chrLen = 8192 * (cfg.cart.chrLen / 8192) ∧
      cfg.cart.prgLen / 16384 ∈ b.prgUnits ∧ cfg.cart.chrLen / 8192 ∈ b.chrUnits
  · obtain ⟨hn, hm, hn', hm'⟩ := h
    rw [if_pos ⟨hn, hn', hm, hm'⟩, if_pos ⟨hn, hm, hn', hm'⟩]
  · rw [if_neg h, if_neg fun ⟨hn, hn', hm, hm'⟩ => h ⟨hn, hm, hn', hm'⟩]

theorem construct_of_noBoard {cfg : Cfg} (hboard : boardOf cfg.cart.mapperId = none) :
    construct cfg = .error (.unsupportedMapper cfg.cart.mapperId) := by
  simp only [construct, CartImage.check, hboard]

/-- Settles O12: the board by the id, then the lengths by the board. -/
theorem constructionAcceptsExactlyTheListedImages : Obligations.ConstructionAcceptsExactlyTheListedImages := by
  intro cfg hprg hchr
  refine ⟨_, _, rfl, rfl, ?_⟩
  have hboard := boardOf_eq cfg.cart.mapperId
  by_cases h0 : cfg.cart.mapperId = 0
  · rw [if_pos h0] at hboard
    rw [construct_of_board hboard hprg hchr]
    simp [h0, Board.prgUnits, Board.chrUnits]
  by_cases h1 : cfg.cart.mapperId = 1
  · rw [if_neg h0, if_pos h1] at hboard
    rw [construct_of_board hboard hprg hchr]
    simp [h1, Board.prgUnits, Board.chrUnits]
  by_cases h4 : cfg.cart.mapperId = 4
  · rw [if_neg h0, if_neg h1, if_pos h4] at hboard
    rw [construct_of_board hboard hprg hchr]
    simp [h4, Board.prgUnits, Board.chrUnits]
  · rw [if_neg h0, if_neg h1, if_neg h4] at hboard
    rw [construct_of_noBoard hboard, if_pos ⟨h0, h1, h4⟩]

end Sys2Proof.Machine
end

section
/-! PROOFS. PRG ROM through the boards' windows and the boards' registers (spec/62_mapper.md rules R423 to R427, R432, R433,
R442, R445, R447, R452, R454, R458 to R461). -/

namespace Sys2Proof.Machine

/-! ### PRG ROM windows (rules R432, R445, R454) -/

/-- The 16KB bank of MMC1 by the number of its PRG mode. -/
theorem mmc1PrgBank_eq (c : Cart) (r : Mmc1) (a : Addr) : mmc1PrgBank c r a =
    if r.control.toNat / 4 % 4 = 2 then (if a.toNat < 0xC000 then 0 else r.prgbank.toNat % 16)
    else if r.control.toNat / 4 % 4 = 3 then (if a.toNat < 0xC000 then r.prgbank.toNat % 16 else c.prgUnits - 1)
    else r.prgbank.toNat % 16 / 2 * 2 + (if a.toNat < 0xC000 then 0 else 1) := by
  have hmode : (r.control &&& 0x0C#5).toNat = r.control.toNat / 4 % 4 * 4 := toNat_and_field 2 2 rfl _
  have hbank : (r.prgbank &&& 0x0F#5).toNat = r.prgbank.toNat % 16 := by
    rw [toNat_and_field 0 4 rfl]
    omega
  have heven : (r.prgbank &&& 0x0E#5).toNat = r.prgbank.toNat % 16 / 2 * 2 := by
    rw [toNat_and_field 1 3 rfl]
    omega
  have h2 : r.control &&& 0x0C#5 = 0x08#5 ↔ r.control.toNat / 4 % 4 = 2 := by
    rw [← BitVec.toNat_inj, hmode, BitVec.toNat_ofNat]
    omega
  have h3 : r.control &&& 0x0C#5 = 0x0C#5 ↔ r.control.toNat / 4 % 4 = 3 := by
    rw [← BitVec.toNat_inj, hmode, BitVec.toNat_ofNat]
    omega
  simp only [mmc1PrgBank, hbank, heven, h2, h3, decide_eq_true_eq]
  by_cases hlow : a.toNat < 0xC000
  · simp only [hlow, if_true, Nat.not_le.mpr hlow, if_false, Nat.add_zero]
  · simp only [hlow, if_false, Nat.not_lt.mp hlow, if_true]

/-- PRG ROM has two 8KB banks to a unit. -/
theorem Cart.prgLen_div (c : Cart) : c.prgLen / 8192 = 2 * c.prgUnits := by
  rw [Cart.prgLen]
  omega

/-- The 8KB bank of MMC3, its bank registers cut to six bits. -/
theorem mmc3PrgBank_eq (c : Cart) (r : Mmc3) (a : Addr) : mmc3PrgBank c r a =
    if a.toNat < 0xA000 then (if r.bankSelect.getLsbD 6 then 2 * c.prgUnits - 2 else r.bank[6].toNat % 64)
    else if a.toNat < 0xC000 then r.bank[7].toNat % 64
    else if a.toNat < 0xE000 then (if r.bankSelect.getLsbD 6 then r.bank[6].toNat % 64 else 2 * c.prgUnits - 2)
    else 2 * c.prgUnits - 1 := by
  have hlow (b : Byte) : (b &&& 0x3F#8).toNat = b.toNat % 64 := by
    rw [toNat_and_field 0 6 rfl]
    omega
  simp only [mmc3PrgBank, hlow, Cart.prgLen_div]

/-- Settles O49: `prgOffset` of each board, its banks by `mmc1PrgBank_eq` and `mmc3PrgBank_eq`. -/
theorem prgRomWindows : Obligations.PrgRomWindows := by
  intro s a ha
  have hread : (busRead a s).1 = s.cart.prg.read (prgOffset s.cart s.mapper a) := by rw [busRead_of_rom ha]
  rw [hread]
  refine ⟨fun hm => ?nrom, fun r hm bank hbank => ?mmc1, fun r hm bank n8 hn hbank => ?mmc3⟩
  case nrom =>
    rw [hm]
    rfl
  case mmc1 =>
    have hwindow : (a &&& 0x3FFF#16).toNat = a.toNat % 16384 := by
      rw [toNat_and_field 0 14 rfl]
      omega
    have hsame : mmc1PrgBank s.cart r a = bank := by
      rw [mmc1PrgBank_eq, hbank]
      have hmode := Nat.mod_lt (r.control.toNat / 4) (show 0 < 4 by decide)
      generalize r.control.toNat / 4 % 4 = mode at hmode
      interval_cases mode <;> rfl
    rw [hm]
    simp only [prgOffset, hwindow, hsame, Cart.prgLen]
  case mmc3 =>
    have hwindow : (a &&& 0x1FFF#16).toNat = a.toNat % 8192 := by
      rw [toNat_and_field 0 13 rfl]
      omega
    rw [hm, hbank, hn]
    simp only [prgOffset, hwindow, mmc3PrgBank_eq, Cart.prgLen_div]

/-! ### Writes at $8000 and above (rules R427, R433, R442, R452) -/

/-- A write at $8000 or above reaches the board's registers and nothing else (rule R427). -/
theorem busWrite_of_rom {a : Addr} (h : 0x8000 ≤ a.toNat) (v : Byte) (s : State) :
    busWrite a v s = { s with busLast := v, mapper := s.mapper.writeReg a v } := by
  have h1 : ¬ a.toNat < 0x2000 := by omega
  have h2 : ¬ a.toNat < 0x4000 := by omega
  have h3 : ¬ a.toNat < 0x4018 := by omega
  have h4 : ¬ a.toNat < 0x4020 := by omega
  have h5 : ¬ (0x6000 ≤ a.toNat ∧ a.toNat < 0x8000 ∧ s.mapper.ramWritable = true) := by omega
  simp only [busWrite, h1, h2, h3, h4, if_false, cartCpuWrite, h5, mapperCpuWrite, h, if_true]

/-- The lowest bit of a byte as a number. -/
theorem extractLsb'_0_1 (v : Byte) : v.extractLsb' 0 1 = BitVec.ofNat 1 v.toNat := by
  rw [BitVec.ofNat_toNat, BitVec.setWidth_eq_extractLsb' (by decide)]

/-- The bits of the address by which MMC3 selects a register (rule R452). -/
theorem toNat_and_E001 (a : Addr) : (a &&& 0xE001#16).toNat = a.toNat / 8192 * 8192 + a.toNat % 2 := by
  have ha := a.isLt
  have hmask : 0xE001#16 = 0xE000#16 ||| 0x0001#16 := rfl
  rw [hmask, BitVec.and_or_distrib_left, BitVec.toNat_or, toNat_and_field 13 3 rfl, toNat_and_field 0 1 rfl]
  have hjoin := or_eq_add (a.toNat / 2 ^ 13 % 2 ^ 3) (a.toNat / 2 ^ 0 % 2 ^ 1 * 2 ^ 0) 13 (by omega)
  rw [Nat.mul_comm _ (2 ^ 13), hjoin]
  omega

/-- The register an MMC3 write reaches, by the range of the address and its lowest bit (rule R452). -/
theorem mmc3Write_eq {a : Addr} (ha : 0x8000 ≤ a.toNat) (r : Mmc3) (v : Byte) : mmc3Write r a v =
    if a.toNat < 0xA000 then
      if a.toNat % 2 = 0 then { r with bankSelect := v }
      else { r with bank := r.bank.setIfInBounds (r.bankSelect.toNat % 8) v }
    else if a.toNat < 0xC000 then
      if a.toNat % 2 = 0 then { r with mirror := BitVec.ofNat 1 v.toNat } else { r with ramProtect := v }
    else if a.toNat < 0xE000 then
      if a.toNat % 2 = 0 then { r with irqLatch := v } else { r with irqCounter := 0#8, irqReload := true }
    else if a.toNat % 2 = 0 then { r with irqEnable := false, irqPending := false }
    else { r with irqEnable := true } := by
  have hlt := a.isLt
  have hselect : (r.bankSelect &&& 7#8).toNat = r.bankSelect.toNat % 8 := by
    rw [toNat_and_field 0 3 rfl]
    omega
  have hkey (k : Nat) (hk : a.toNat / 8192 * 8192 + a.toNat % 2 = k) :
      mmc3Write r a v = mmc3Write r (BitVec.ofNat 16 k) v := by
    have hand : a &&& 0xE001#16 = BitVec.ofNat 16 k &&& 0xE001#16 := by
      apply BitVec.eq_of_toNat_eq
      rw [toNat_and_E001, toNat_and_E001, BitVec.toNat_ofNat]
      omega
    simp only [mmc3Write, hand]
  rw [← hselect, ← extractLsb'_0_1]
  split
  · split
    · exact hkey 0x8000 (by omega)
    · exact hkey 0x8001 (by omega)
  split
  · split
    · exact hkey 0xA000 (by omega)
    · exact hkey 0xA001 (by omega)
  split
  · split
    · exact hkey 0xC000 (by omega)
    · exact hkey 0xC001 (by omega)
  · split
    · exact hkey 0xE000 (by omega)
    · exact hkey 0xE001 (by omega)

/-- Settles O51: NROM has no register; MMC3's by `mmc3Write_eq`. -/
theorem boardRegisterWrites : Obligations.BoardRegisterWrites := by
  intro s a v ha
  refine ⟨fun hm => ?_, fun r hm => ?_⟩
  · rw [busWrite_of_rom ha]
    cases s
    cases hm
    rfl
  · rw [busWrite_of_rom ha, hm, Mapper.writeReg, mmc3Write_eq ha]

/-! ### MMC1's serial register (rule R442) -/

/-- The serial register with the low bit of `v` shifted in. -/
def shiftedIn (sr : BitVec 5) (v : Byte) : BitVec 5 := BitVec.ofNat 5 (sr.toNat / 2 + 16 * (v.toNat % 2))

/-- The register of MMC1 that the address selects, loaded with `w`, the serial register emptied. -/
def mmc1Loaded (r : Mmc1) (a : Addr) (w : BitVec 5) : Mmc1 :=
  if a.toNat < 0xA000 then { r with sr := 0#5, cnt := 0, control := w }
  else if a.toNat < 0xC000 then { r with sr := 0#5, cnt := 0, chr0 := w }
  else if a.toNat < 0xE000 then { r with sr := 0#5, cnt := 0, chr1 := w }
  else { r with sr := 0#5, cnt := 0, prgbank := w }

theorem shiftedIn_eq (sr : BitVec 5) (v : Byte) :
    (sr >>> 1) ||| (if v.getLsbD 0 then 0x10#5 else 0#5) = shiftedIn sr v := by
  have hsr := sr.isLt
  apply BitVec.eq_of_toNat_eq
  rw [shiftedIn, bit0_eq, BitVec.toNat_or, BitVec.toNat_ushiftRight, Nat.shiftRight_eq_div_pow, BitVec.toNat_ofNat]
  by_cases hv : v.toNat % 2 = 1
  · have hjoin := or_eq_add 1 (sr.toNat / 2 ^ 1) 4 (by omega)
    simp only [hv, decide_true, if_true, BitVec.toNat_ofNat]
    rw [Nat.or_comm]
    exact hjoin.trans (by omega)
  · simp only [hv, decide_false, Bool.false_eq_true, if_false, BitVec.toNat_ofNat]
    exact (Nat.or_zero _).trans (by omega)

theorem mmc1Load_eq {a : Addr} (ha : 0x8000 ≤ a.toNat) (r : Mmc1) (w : BitVec 5) :
    { mmc1Load r a w with sr := 0#5, cnt := 0 } = mmc1Loaded r a w := by
  have hlt := a.isLt
  have hfield : (a &&& 0x6000#16).toNat = a.toNat / 8192 % 4 * 8192 := toNat_and_field 13 2 rfl _
  unfold mmc1Loaded
  have hkey (k : Nat) (hk : a.toNat / 8192 % 4 * 8192 = k) : a &&& 0x6000#16 = BitVec.ofNat 16 k := by
    apply BitVec.eq_of_toNat_eq
    rw [hfield, BitVec.toNat_ofNat]
    omega
  split
  · rw [mmc1Load, if_pos (hkey 0 (by omega))]
  split
  · rw [mmc1Load, hkey 0x2000 (by omega)]; rfl
  split
  · rw [mmc1Load, hkey 0x4000 (by omega)]; rfl
  · rw [mmc1Load, hkey 0x6000 (by omega)]; rfl

/-- A write with bit 7 clear shifts its low bit in, and the fifth loads the register that its address selects. -/
theorem mmc1Write_of_shift {a : Addr} (ha : 0x8000 ≤ a.toNat) {v : Byte} (hv : v.toNat < 128) {r : Mmc1} (hcnt : r.cnt ≤ 4) :
    mmc1Write r a v =
      if r.cnt < 4 then { r with sr := shiftedIn r.sr v, cnt := r.cnt + 1 } else mmc1Loaded r a (shiftedIn r.sr v) := by
  have hbit : v.getLsbD 7 = false := by
    rw [bit7_eq]
    exact decide_eq_false (by omega)
  simp only [mmc1Write, hbit, Bool.false_eq_true, if_false, shiftedIn_eq]
  by_cases hfull : r.cnt = 4
  · rw [if_pos hfull, if_neg (by omega), mmc1Load_eq ha]
  · rw [if_neg hfull, if_pos (by omega)]

/-- A write with bit 7 set empties the serial register. -/
theorem mmc1Write_of_reset {v : Byte} (hv : 128 ≤ v.toNat) (r : Mmc1) (a : Addr) :
    mmc1Write r a v = { r with sr := 0#5, cnt := 0, control := r.control ||| 0x0C#5 } := by
  rw [mmc1Write, if_pos (by rw [bit7_eq]; exact decide_eq_true hv)]

/-- Five shifts replace the whole serial register, the first bit lowest. -/
theorem shiftedIn_five (sr : BitVec 5) (v1 v2 v3 v4 v5 : Byte) :
    (shiftedIn (shiftedIn (shiftedIn (shiftedIn (shiftedIn sr v1) v2) v3) v4) v5).toNat =
      v1.toNat % 2 + 2 * (v2.toNat % 2) + 4 * (v3.toNat % 2) + 8 * (v4.toNat % 2) + 16 * (v5.toNat % 2) := by
  have hsr := sr.isLt
  simp only [shiftedIn, BitVec.toNat_ofNat]
  omega

/-- Settles O52: `mmc1Write_of_shift` and `mmc1Write_of_reset`, the first five times in a row. -/
theorem fiveWritesLoadAnMmc1Register : Obligations.FiveWritesLoadAnMmc1Register := by
  intro s r hm
  refine ⟨fun a v w ha hv hcnt hw => ?one, fun a v ha hv => ?reset,
    fun a1 a2 a3 a4 a5 v1 v2 v3 v4 v5 w hcnt haddr hvalue hw => ?five⟩
  case one =>
    rw [busWrite_of_rom ha, hm, Mapper.writeReg, mmc1Write_of_shift ha hv hcnt, hw]
    rfl
  case reset => rw [busWrite_of_rom ha, hm, Mapper.writeReg, mmc1Write_of_reset hv]
  case five =>
    simp only [List.forall_mem_cons] at haddr hvalue
    obtain ⟨ha1, ha2, ha3, ha4, ha5, -⟩ := haddr
    obtain ⟨hv1, hv2, hv3, hv4, hv5, -⟩ := hvalue
    have hword : w = shiftedIn (shiftedIn (shiftedIn (shiftedIn (shiftedIn r.sr v1) v2) v3) v4) v5 := by
      apply BitVec.eq_of_toNat_eq
      rw [shiftedIn_five, hw]
    simp only [busWrite_of_rom ha1, busWrite_of_rom ha2, busWrite_of_rom ha3, busWrite_of_rom ha4, busWrite_of_rom ha5,
      hm, Mapper.writeReg]
    rw [mmc1Write_of_shift ha1 hv1 (by omega), if_pos (by omega), mmc1Write_of_shift ha2 hv2 (by simp [hcnt]),
      if_pos (by simp [hcnt]), mmc1Write_of_shift ha3 hv3 (by simp [hcnt]), if_pos (by simp [hcnt]),
      mmc1Write_of_shift ha4 hv4 (by simp [hcnt]), if_pos (by simp [hcnt]), mmc1Write_of_shift ha5 hv5 (by simp [hcnt]),
      if_neg (by simp [hcnt]), hword]
    rfl

/-! ### MMC3's scanline counter (rules R458 to R461) -/

/-- MMC3 once `n` has been written to the latch, then a reload and an enable. -/
def mmc3Armed (r : Mmc3) (n : Byte) : Mmc3 :=
  { r with irqLatch := n, irqCounter := 0#8, irqReload := true, irqEnable := true }

/-- Once the reload has set the counter to `n`, the counter counts down and the IRQ comes when it reaches 0. -/
theorem repeat_clockCounter_armed {r : Mmc3} (hpending : r.irqPending = false) {n : Byte} {k : Nat} (hk : k ≤ n.toNat) :
    Nat.repeat mmc3ClockCounter (k + 1) (mmc3Armed r n) =
      { mmc3Armed r n with
        irqCounter := BitVec.ofNat 8 (n.toNat - k), irqReload := false, irqPending := decide (k = n.toNat) } := by
  have hn := n.isLt
  induction k with
  | zero =>
    have hzero : (n == 0#8) = decide (0 = n.toNat) := by
      rw [Bool.eq_iff_iff, beq_iff_eq, decide_eq_true_eq, ← BitVec.toNat_inj, eq_comm]
      rfl
    simp only [Nat.repeat, mmc3ClockCounter, mmc3Armed, or_true, if_true, hpending, Bool.and_true,
      Bool.false_or, hzero, Nat.sub_zero, BitVec.ofNat_toNat, BitVec.setWidth_eq]
  | succ k ih =>
    have hprev := ih (by omega)
    have hcounter : BitVec.ofNat 8 (n.toNat - k) ≠ 0#8 := by
      rw [ne_eq, ← BitVec.toNat_inj, BitVec.toNat_ofNat, BitVec.toNat_ofNat]
      omega
    have hless : BitVec.ofNat 8 (n.toNat - k) - 1#8 = BitVec.ofNat 8 (n.toNat - (k + 1)) := by
      apply BitVec.eq_of_toNat_eq
      simp only [BitVec.toNat_sub, BitVec.toNat_ofNat]
      omega
    have hzero : (BitVec.ofNat 8 (n.toNat - (k + 1)) == 0#8) = decide (k + 1 = n.toNat) := by
      rw [Bool.eq_iff_iff, beq_iff_eq, decide_eq_true_eq, ← BitVec.toNat_inj, BitVec.toNat_ofNat, BitVec.toNat_ofNat]
      omega
    have hearlier : decide (k = n.toNat) = false := decide_eq_false (by omega)
    rw [Nat.repeat, hprev]
    simp only [mmc3ClockCounter, mmc3Armed, hcounter, Bool.false_eq_true, or_self, if_false, hless, hzero, hearlier,
      Bool.and_true, Bool.false_or]

/-- Clocking the counter never withdraws the IRQ. -/
theorem clockCounter_irqPending {r : Mmc3} (h : r.irqPending = true) : (mmc3ClockCounter r).irqPending = true := by
  simp only [mmc3ClockCounter, h, Bool.true_or]

/-- A rise of A12 clocks the counter where the line has been low for long enough, and is noted in either case. -/
theorem mmc3Notify_of_rise (filter now : Nat) {r : Mmc3} {a : BitVec 14} (ha : a.getLsbD 12 = true) (hlow : r.a12 = false) :
    mmc3Notify filter r a now =
      { (if filter ≤ now - r.a12LowSince then mmc3ClockCounter r else r) with a12 := true } := by
  simp only [mmc3Notify, ha, hlow, if_true, Bool.false_eq_true, if_false]

theorem mmc3Notify_of_fall (filter now : Nat) {r : Mmc3} {a : BitVec 14} (ha : a.getLsbD 12 = false) (hhigh : r.a12 = true) :
    mmc3Notify filter r a now = { r with a12 := false, a12LowSince := now } := by
  simp only [mmc3Notify, ha, hhigh, if_true, Bool.false_eq_true, if_false]

theorem mmc3Notify_of_level (filter now : Nat) {r : Mmc3} {a : BitVec 14} (h : a.getLsbD 12 = r.a12) :
    mmc3Notify filter r a now = r := by
  unfold mmc3Notify
  rw [h]
  cases r.a12 <;> rfl

/-- No notification withdraws the IRQ (rule R461). -/
theorem mmc3Notify_irqPending (filter now : Nat) {r : Mmc3} (a : BitVec 14) (h : r.irqPending = true) :
    (mmc3Notify filter r a now).irqPending = true := by
  cases ha : a.getLsbD 12 <;> cases hr : r.a12
  · rwa [mmc3Notify_of_level filter now (ha.trans hr.symm)]
  · rwa [mmc3Notify_of_fall filter now ha hr]
  · rw [mmc3Notify_of_rise filter now ha hr]
    split
    · exact clockCounter_irqPending h
    · exact h
  · rwa [mmc3Notify_of_level filter now (ha.trans hr.symm)]

/-- Settles O53: the filter by the level and its change, the count by `repeat_clockCounter_armed`. -/
theorem mmc3ScanlineCounter : Obligations.Mmc3ScanlineCounter := by
  refine ⟨fun _ _ _ => ⟨rfl, rfl, fun _ => ⟨rfl, rfl⟩, fun _ => ⟨rfl, rfl⟩⟩, fun r n hn => ?clock,
    fun filter now r a hpast => ?filter, fun s r n b c hm hpending => ?count⟩
  case clock =>
    rw [hn]
    rfl
  case filter =>
    refine ⟨mmc3Notify_of_level filter now, mmc3Notify_of_fall filter now, fun ha hr hlong => ?_, fun ha hr hshort => ?_,
      mmc3Notify_irqPending filter now a⟩
    · rw [mmc3Notify_of_rise filter now ha hr, if_pos (by omega)]
    · rw [mmc3Notify_of_rise filter now ha hr, if_neg (by omega)]
  case count =>
    refine ⟨mmc3Armed r n, ?_, fun k hk => ?_⟩
    · simp only [busWrite_of_rom (a := 0xE001#16) (by decide), busWrite_of_rom (a := 0xC001#16) (by decide),
        busWrite_of_rom (a := 0xC000#16) (by decide), hm]
      rfl
    · cases k with
      | zero => simp [Nat.repeat, mmc3Armed, hpending]
      | succ k =>
        rw [repeat_clockCounter_armed hpending (by omega), decide_eq_true_eq]
        omega

end Sys2Proof.Machine
end

section
/-! PROOFS. OAM DMA and the controller ports (spec/63_io_and_scheduler.md rules R472 to R475, R478, R479). -/

namespace Sys2Proof.Machine

/-! ### OAM DMA (rules R478, R479) -/

/-- The address of byte `i` of a page. -/
theorem dmaAddr_eq (page : Byte) (i : Nat) :
    (page ++ 0#8) + BitVec.ofNat 16 i = BitVec.ofNat 16 (256 * page.toNat + i) := by
  have hhigh : page ++ 0#8 = BitVec.ofNat 16 (256 * page.toNat) := by
    have hpage := page.isLt
    apply BitVec.eq_of_toNat_eq
    change (wordOf page 0#8).toNat = _
    rw [wordOf_toNat, BitVec.toNat_ofNat, BitVec.toNat_ofNat]
    omega
  rw [hhigh, ← BitVec.ofNat_add]

/-- A write of $4014 is the copy and its cost. -/
theorem busWrite_oamDma (page : Byte) (s : State) : busWrite 0x4014#16 page s =
    { dmaCopy page { s with busLast := page } with cyc := s.cyc + 513 + s.cyc % 2 } := by
  have hcyc := (dmaCopy_frame page { s with busLast := page }).2.1
  change oamDma page { s with busLast := page } = _
  simp only [oamDma, dmaCost, hcyc, Nat.add_assoc]

/-- The first `k` turns of the copy are the first `k` terms of any sequence that reads and stores in this way. -/
theorem foldl_dmaByte_eq {page : Byte} {m : Nat → State}
    (hstep : ∀ i, i < 256 → ∀ (b : Byte) (u : State), busRead (BitVec.ofNat 16 (256 * page.toNat + i)) (m i) = (b, u) →
      m (i + 1) = { u with ppu := { u.ppu with oam := u.ppu.oam.write ((u.ppu.oamaddr.toNat + i) % 256) b } })
    {k : Nat} (hk : k ≤ 256) :
    (List.range k).foldl (dmaByte page) (m 0) = m k ∧ (m k).ppu.oamaddr = (m 0).ppu.oamaddr := by
  induction k with
  | zero => exact ⟨rfl, rfl⟩
  | succ k ih =>
    obtain ⟨hfold, haddr⟩ := ih (by omega)
    obtain ⟨_, _, _, _, hread⟩ := busRead_ppu (BitVec.ofNat 16 (256 * page.toNat + k)) (m k)
    have hnext : m (k + 1) = dmaByte page (m k) k := by
      rw [hstep k (by omega) _ _ Prod.mk.eta.symm]
      simp only [dmaByte, dmaAddr_eq]
    constructor
    · rw [List.range_succ, List.foldl_append, hfold, List.foldl_cons, List.foldl_nil, hnext]
    · rw [hnext, ← haddr]
      simp only [dmaByte, dmaAddr_eq, hread]

/-- OAM once the first `k` of `bytes` have been stored from index `start` on, wrapping. -/
def copiedInto (bytes : Nat → Byte) (start : Nat) (oam : Memory) : Nat → Memory
  | 0 => oam
  | k + 1 => (copiedInto bytes start oam k).write ((start + k) % 256) (bytes k)

theorem wf_copiedInto (bytes : Nat → Byte) (start : Nat) {oam : Memory} (h : oam.wf 256 = true) (k : Nat) :
    (copiedInto bytes start oam k).wf 256 = true := by
  induction k with
  | zero => exact h
  | succ k ih => exact Memory.wf_write _ _ ih (Nat.mod_lt _ (by decide))

/-- Each of the bytes stands where it was stored. -/
theorem read_copiedInto (bytes : Nat → Byte) (start : Nat) {oam : Memory} (h : oam.wf 256 = true) {k i : Nat} (hi : i < k)
    (hk : k ≤ 256) : (copiedInto bytes start oam k).read ((start + i) % 256) = bytes i := by
  induction k with
  | zero => omega
  | succ k ih =>
    rw [copiedInto]
    by_cases hlast : i = k
    · rw [hlast, Memory.wf_read_write _ _ (wf_copiedInto bytes start h k)]
    · rw [Memory.read_write_other _ _ _ _ (by omega)]
      exact ih (by omega) (by omega)

/-- A state whose bus and OAM alone have changed. -/
def State.withBusOam (s : State) (b : Byte) (oam : Memory) : State := { s with busLast := b, ppu := { s.ppu with oam := oam } }

/-- The copy where each read only drives the bus, with `bytes i` for byte `i`; the bus before it shows `bytes (i - 1)`. -/
theorem dmaCopy_of_reads {page : Byte} {bytes : Nat → Byte} {s : State}
    (hread : ∀ i, i < 256 → ∀ b oam, (i = 0 → b = s.busLast) → (0 < i → b = bytes (i - 1)) →
      busRead (BitVec.ofNat 16 (256 * page.toNat + i)) (s.withBusOam b oam) = (bytes i, s.withBusOam (bytes i) oam)) :
    dmaCopy page s = s.withBusOam (bytes 255) (copiedInto bytes s.ppu.oamaddr.toNat s.ppu.oam 256) := by
  let m (i : Nat) : State :=
    s.withBusOam (if i = 0 then s.busLast else bytes (i - 1)) (copiedInto bytes s.ppu.oamaddr.toNat s.ppu.oam i)
  have hstep : ∀ i, i < 256 → ∀ (b : Byte) (u : State), busRead (BitVec.ofNat 16 (256 * page.toNat + i)) (m i) = (b, u) →
      m (i + 1) = { u with ppu := { u.ppu with oam := u.ppu.oam.write ((u.ppu.oamaddr.toNat + i) % 256) b } } := by
    intro i hi b u hbu
    have hnow := hread i hi (if i = 0 then s.busLast else bytes (i - 1)) (copiedInto bytes s.ppu.oamaddr.toNat s.ppu.oam i)
      (fun h0 => if_pos h0) (fun h0 => if_neg (by omega))
    obtain ⟨rfl, rfl⟩ := Prod.mk.inj (hbu.symm.trans hnow)
    rfl
  exact (foldl_dmaByte_eq (m := m) hstep (Nat.le_refl 256)).1

/-- The copy of a page of stored bytes. -/
theorem dmaCopy_of_plain {page : Byte} {bytes : Nat → Byte} {s : State}
    (hplain : ∀ i, i < 256 → s.plainAt (BitVec.ofNat 16 (256 * page.toNat + i)) = true)
    (hbyte : ∀ i, i < 256 → s.byteAt (BitVec.ofNat 16 (256 * page.toNat + i)) = some (bytes i)) :
    dmaCopy page s = s.withBusOam (bytes 255) (copiedInto bytes s.ppu.oamaddr.toNat s.ppu.oam 256) :=
  dmaCopy_of_reads fun i hi b oam _ _ => busRead_of_plain (s := s.withBusOam b oam) (hplain i hi) (hbyte i hi)

/-- The copy of a page where nothing answers: the open bus holds the page number throughout. -/
theorem dmaCopy_of_openBus {page : Byte} {s : State} (hlo : 0x41 ≤ page.toNat) (hhi : page.toNat < 0x80)
    (hopen : page.toNat < 0x60 ∨ s.mapper.ramReadable = false) (hbus : s.busLast = page) :
    dmaCopy page s = s.withBusOam page (copiedInto (fun _ => page) s.ppu.oamaddr.toNat s.ppu.oam 256) := by
  refine dmaCopy_of_reads (bytes := fun _ => page) fun i hi b oam hfirst hlater => ?_
  have haddr : (BitVec.ofNat 16 (256 * page.toNat + i)).toNat = 256 * page.toNat + i := by
    rw [BitVec.toNat_ofNat]
    omega
  have hnone : noRegisterAt (BitVec.ofNat 16 (256 * page.toNat + i)) := by
    refine .inr ⟨by omega, ?_, ?_⟩ <;>
    · rw [ne_eq, ← BitVec.toNat_inj, haddr, BitVec.toNat_ofNat]
      omega
  have hb : b = page := by
    obtain h0 | h0 := Nat.eq_zero_or_pos i
    · exact (hfirst h0).trans hbus
    · exact hlater h0
  have hregion : (s.withBusOam b oam).regionByte (BitVec.ofNat 16 (256 * page.toNat + i)) = page := by
    rw [State.regionByte, haddr, if_neg (by omega)]
    split
    · exact hb
    · next hram =>
      rw [if_pos (by omega), if_neg]
      · exact hb
      · change ¬ s.mapper.ramReadable = true
        rw [hopen.resolve_left (by omega)]
        decide
  rw [busRead_of_noRegister hnone, hregion]
  rfl

/-- The addresses of a page below $20, at $80 or above, or in readable PRG RAM show stored bytes. -/
theorem plain_of_page {page : Byte} {s : State}
    (h : page.toNat < 0x20 ∨ 0x80 ≤ page.toNat ∨ (0x60 ≤ page.toNat ∧ s.mapper.ramReadable = true))
    {i : Nat} (hi : i < 256) :
    s.plainAt (BitVec.ofNat 16 (256 * page.toNat + i)) = true ∧
      (s.byteAt (BitVec.ofNat 16 (256 * page.toNat + i))).isSome = true := by
  have hpage := page.isLt
  have haddr : (BitVec.ofNat 16 (256 * page.toNat + i)).toNat = 256 * page.toNat + i := by
    rw [BitVec.toNat_ofNat]
    omega
  constructor
  · simp only [State.plainAt, haddr, Bool.or_eq_true, Bool.and_eq_true, decide_eq_true_eq]
    obtain hram | hrom | ⟨hprgRam, hreadable⟩ := h
    · exact .inl (.inl (by omega))
    · exact .inl (.inr (by omega))
    · exact .inr ⟨by omega, hreadable⟩
  · rw [State.byteAt, haddr]
    split
    · rfl
    · rw [if_neg (by omega)]
      split <;> rfl

/-- Settles O54: the sequence by `foldl_dmaByte_eq`, the closed forms by `dmaCopy_of_plain` and `dmaCopy_of_openBus`. -/
theorem oamDmaCopiesAPage : Obligations.OamDmaCopiesAPage := by
  intro s page
  refine ⟨fun m hm hstep => ?sequence, fun hwf => ⟨fun hpage => ?stored, fun hpage => ?openBus⟩⟩
  case sequence =>
    obtain ⟨hfold, haddr⟩ := foldl_dmaByte_eq hstep (Nat.le_refl 256)
    refine ⟨haddr.trans (by rw [hm]), ?_⟩
    rw [busWrite_oamDma, dmaCopy, ← hm, hfold]
  case stored =>
    let bytes (i : Nat) : Byte := (s.byteAt (BitVec.ofNat 16 (256 * page.toNat + i))).getD 0#8
    have hbyte : ∀ i, i < 256 → s.byteAt (BitVec.ofNat 16 (256 * page.toNat + i)) = some (bytes i) := by
      intro i hi
      obtain ⟨b, hb⟩ := Option.isSome_iff_exists.mp (plain_of_page hpage hi).2
      simp only [bytes, hb, Option.getD_some]
    have hread {i : Nat} (hi : i < 256) := read_copiedInto bytes s.ppu.oamaddr.toNat hwf hi (Nat.le_refl 256)
    refine ⟨copiedInto bytes s.ppu.oamaddr.toNat s.ppu.oam 256, wf_copiedInto bytes _ hwf 256, fun i hi => ?_, ?_⟩
    · rw [hread hi, hbyte i hi]
    · rw [busWrite_oamDma, dmaCopy_of_plain (s := { s with busLast := page }) (fun i hi => (plain_of_page hpage hi).1) hbyte,
        hread (by decide)]
      rfl
  case openBus =>
    refine ⟨copiedInto (fun _ => page) s.ppu.oamaddr.toNat s.ppu.oam 256, wf_copiedInto _ _ hwf 256, fun i hi => ?_, ?_⟩
    · have hstart := s.ppu.oamaddr.isLt
      have hindex : i = (s.ppu.oamaddr.toNat + (i + 256 - s.ppu.oamaddr.toNat) % 256) % 256 := by omega
      rw [hindex]
      exact read_copiedInto (fun _ => page) _ hwf (Nat.mod_lt _ (by decide)) (Nat.le_refl 256)
    · rw [busWrite_oamDma,
        dmaCopy_of_openBus (page := page) (s := { s with busLast := page }) (by omega) (by omega) (by tauto) rfl]
      rfl

/-! ### The controller ports (rules R473 to R475) -/

/-- A clock shifts a one in at the top. -/
theorem Controller.clocked_shift (c : Controller) : c.clocked.shift =
    if c.strobe then c.shift else BitVec.ofNat 8 (c.shift.toNat / 2 + 128) := by
  have hshift : (c.shift >>> 1) ||| 0x80#8 = BitVec.ofNat 8 (c.shift.toNat / 2 + 128) := by
    have hlt := c.shift.isLt
    have hjoin := or_eq_add 1 (c.shift.toNat / 2 ^ 1) 7 (by omega)
    apply BitVec.eq_of_toNat_eq
    rw [BitVec.toNat_or, BitVec.toNat_ushiftRight, Nat.shiftRight_eq_div_pow, Nat.or_comm, BitVec.toNat_ofNat,
      BitVec.toNat_ofNat]
    exact hjoin.trans (by omega)
  unfold Controller.clocked
  split
  · rfl
  · exact hshift

theorem Controller.clocked_eq (c : Controller) : c.clocked =
    { c with shift := if c.strobe then c.shift else BitVec.ofNat 8 (c.shift.toNat / 2 + 128) } := by
  have hshift := c.clocked_shift
  have hstrobe := c.clocked_strobe
  have hbuttons := c.clocked_buttons
  generalize c.clocked = d at *
  cases d
  simp_all

/-- The byte a port shows: its bit under the open bus's upper three. -/
theorem controllerByte_toNat (openBus : Byte) (c : Controller) : (controllerByte openBus c).toNat =
    openBus.toNat / 32 * 32 + (if c.strobe then c.buttons else c.shift).toNat % 2 := by
  have hbus := openBus.isLt
  have hbit : c.bit.toNat = (if c.strobe then c.buttons else c.shift).toNat % 2 := by
    rw [Controller.bit, toNat_and_field 0 1 rfl]
    omega
  have hjoin := or_eq_add (openBus.toNat / 32 % 8) c.bit.toNat 5 (by omega)
  rw [controllerByte, BitVec.toNat_or, toNat_and_field 5 3 rfl, Nat.mul_comm _ (2 ^ 5)]
  exact hjoin.trans (by omega)

/-- The lowest bit of that byte. -/
theorem controllerByte_bit (openBus : Byte) (c : Controller) :
    (controllerByte openBus c).getLsbD 0 = (if c.strobe then c.buttons else c.shift).getLsbD 0 := by
  rw [bit0_eq, bit0_eq, controllerByte_toNat, decide_eq_decide]
  omega

/-- After `k` clocks with the strobe clear the lowest bits are the upper ones of before, and ones have come in above. -/
theorem repeat_clocked {c : Controller} (hstrobe : c.strobe = false) (k : Nat) :
    (Nat.repeat Controller.clocked k c).strobe = false ∧
      ∀ i, i < 8 → (Nat.repeat Controller.clocked k c).shift.getLsbD i =
        if i + k < 8 then c.shift.getLsbD (i + k) else true := by
  induction k with
  | zero => exact ⟨hstrobe, fun i hi => by rw [if_pos (by omega)]; rfl⟩
  | succ k ih =>
    obtain ⟨hclear, hbits⟩ := ih
    have hnext : (Nat.repeat Controller.clocked (k + 1) c).shift =
        ((Nat.repeat Controller.clocked k c).shift >>> 1) ||| 0x80#8 := by
      rw [Nat.repeat, Controller.clocked, if_neg (by rw [hclear]; decide)]
    refine ⟨(Controller.clocked_strobe _).trans hclear, fun i hi => ?_⟩
    rw [hnext, BitVec.getLsbD_or, BitVec.getLsbD_ushiftRight]
    by_cases htop : i = 7
    · rw [htop, if_neg (by omega), show (0x80#8).getLsbD 7 = true from rfl, Bool.or_true]
    · have hlow : (0x80#8).getLsbD i = false := by
        interval_cases i <;> first | rfl | omega
      rw [hlow, Bool.or_false, hbits (1 + i) (by omega), show 1 + i + k = i + (k + 1) by omega]

theorem busRead_port0 (s : State) : busRead 0x4016#16 s = (controllerByte s.busLast s.ctl0,
    { s with busLast := controllerByte s.busLast s.ctl0, ctl0 := s.ctl0.clocked }) := rfl

theorem busRead_port1 (s : State) : busRead 0x4017#16 s = (controllerByte s.busLast s.ctl1,
    { s with busLast := controllerByte s.busLast s.ctl1, ctl1 := s.ctl1.clocked }) := rfl

theorem repeat_read_port0 (k : Nat) (s : State) :
    (Nat.repeat (fun u => (busRead 0x4016#16 u).2) k s).ctl0 = Nat.repeat Controller.clocked k s.ctl0 := by
  induction k with
  | zero => rfl
  | succ k ih => exact congrArg Controller.clocked ih

theorem repeat_read_port1 (k : Nat) (s : State) :
    (Nat.repeat (fun u => (busRead 0x4017#16 u).2) k s).ctl1 = Nat.repeat Controller.clocked k s.ctl1 := by
  induction k with
  | zero => rfl
  | succ k ih => exact congrArg Controller.clocked ih

/-- The bit that a port with the strobe clear shows after `k` reads. -/
theorem bit_after_reads (openBus : Byte) {c : Controller} (hstrobe : c.strobe = false) (k : Nat) :
    (controllerByte openBus (Nat.repeat Controller.clocked k c)).getLsbD 0 = if k < 8 then c.shift.getLsbD k else true := by
  obtain ⟨hclear, hbits⟩ := repeat_clocked hstrobe k
  rw [controllerByte_bit, hclear, if_neg (by decide), hbits 0 (by decide), Nat.zero_add]

/-- What 1 and then 0 leaves in a port: the buttons, with the strobe clear. -/
theorem Controller.write_strobe (c : Controller) :
    (c.write 1#8).write 0#8 = { c with shift := c.buttons, strobe := false } := by
  simp only [Controller.write]
  simp

/-- Settles O55: a read by `controllerByte_toNat` and `Controller.clocked_eq`, the order of the bits by `bit_after_reads`. -/
theorem controllerReadsGiveTheButtonsInOrder : Obligations.ControllerReadsGiveTheButtonsInOrder := by
  intro s t v b ht
  have h0 : t.ctl0 = (s.ctl0.write 1#8).write 0#8 := by rw [ht]; rfl
  have h1 : t.ctl1 = (s.ctl1.write 1#8).write 0#8 := by rw [ht]; rfl
  rw [Controller.write_strobe] at h0 h1
  refine ⟨fun k => ⟨?order0, ?order1⟩, rfl, fun hb => ?read0, fun hb => ?read1⟩
  case order0 =>
    rw [busRead_port0, repeat_read_port0, h0]
    exact bit_after_reads _ rfl k
  case order1 =>
    rw [busRead_port1, repeat_read_port1, h1]
    exact bit_after_reads _ rfl k
  case read0 =>
    obtain rfl : b = controllerByte s.busLast s.ctl0 := BitVec.eq_of_toNat_eq (hb.trans (controllerByte_toNat _ _).symm)
    rw [busRead_port0, Controller.clocked_eq]
  case read1 =>
    obtain rfl : b = controllerByte s.busLast s.ctl1 := BitVec.eq_of_toNat_eq (hb.trans (controllerByte_toNat _ _).symm)
    rw [busRead_port1, Controller.clocked_eq]

end Sys2Proof.Machine
end

section
/-! PROOFS. Ticks that fetch nothing, frames, and the pixel of each dot (spec/61_ppu.md sections 3 and 6). -/

namespace Sys2Proof.Machine

/-! ### Step (1): the position and vblank -/

/-- Away from 241:1 and 261:1 a tick begins by moving the position alone. -/
theorem begun_of_quiet {s : Video} (h241 : ¬ ((advance s.ppu).scanline = 241 ∧ (advance s.ppu).dot = 1))
    (h261 : ¬ ((advance s.ppu).scanline = 261 ∧ (advance s.ppu).dot = 1)) : s.begun = { s with ppu := advance s.ppu } := by
  rw [Video.begun, vblankEvents, if_neg h241, if_neg h261]

/-- Everything a tick's step (1) can do. -/
theorem begun_writes (s : Video) : ∃ vb fr h o n, s.begun =
    { s with ppu := { advance s.ppu with vblank := vb, frameReady := fr, sprite0hit := h, overflow := o }, nmi := n } :=
  vblankEvents_writes { s with ppu := advance s.ppu }

/-- After step (1) no stage of a tick touches the NMI latch. -/
theorem tick_nmi (c : Cart) (f : Nat) (s : Video) : (s.tick c f).nmi = s.begun.nmi := by
  by_cases h : (advance s.ppu).renders
  · rw [Video.tick_of_renders c f h]
    exact (fetchSteps_kept c f s.begun).nmi
  · rw [Video.tick_of_idle c f h]

/-! ### Step (7): the pixel -/

theorem pixelStage_of_drawing {p : Ppu} (h : p.drawsPixel) : pixelStage p = outputPixel p (p.dot - 1) := by
  obtain ⟨hline, hlo, hhi⟩ := h
  rw [pixelStage, if_pos]
  simp only [Ppu.visibleLine, hline, hlo, hhi, decide_true, Bool.and_self]

theorem pixelStage_of_notDrawing {p : Ppu} (h : ¬ p.drawsPixel) : pixelStage p = p := by
  rw [pixelStage, if_neg]
  simpa [Ppu.visibleLine, and_assoc] using h

/-- On a visible line the only way not to render is to have both layers off. -/
theorem layers_off_of_idle {p : Ppu} (hline : p.scanline < 240) (h : ¬ p.renders) :
    p.mask.getLsbD 3 = false ∧ p.mask.getLsbD 4 = false := by
  rw [← Bool.or_eq_false_iff, Bool.eq_false_iff]
  exact fun hmask => h ⟨hmask, .inl hline⟩

theorem rendering_eq (p : Ppu) : p.rendering = (p.mask.getLsbD 3 || p.mask.getLsbD 4) := rfl

/-- With both layers off the backdrop is drawn (rule R368). -/
theorem pixelStage_of_layers_off {p : Ppu} (h : p.drawsPixel) (hbg : p.mask.getLsbD 3 = false)
    (hspr : p.mask.getLsbD 4 = false) :
    pixelStage p = { p with
      framebuffer := p.framebuffer.write (256 * p.scanline + (p.dot - 1))
        (if p.mask.getLsbD 0 then p.palette.read 0 &&& 0x30#8 else p.palette.read 0) } := by
  rw [pixelStage_of_drawing h, outputPixel, rendering_eq, hbg, hspr]
  rfl

/-- Settles O42: such a tick is its step (1), which moves the position alone, and its step (7). -/
theorem idleLinesAndDisabledRendering : Obligations.IdleLinesAndDisabledRendering := by
  rintro s q rfl h241 h261
  have hbegun : s.video.begun = { s.video with ppu := advance s.ppu } := begun_of_quiet (s := s.video) h241 h261
  obtain ⟨-, -, hmask, -⟩ := advance_kept s.ppu
  constructor
  · intro hlo hhi
    have hidle : ¬ (advance s.ppu).renders := by
      rintro ⟨-, hline⟩
      omega
    rw [State.tick, Video.tick_of_idle (s := s.video) _ _ hidle, hbegun, pixelStage_of_invisible hlo]
    rfl
  · intro hbg hspr
    rw [← hmask] at hbg hspr
    have hidle : ¬ (advance s.ppu).renders := by
      rintro ⟨hon, -⟩
      rw [hbg, hspr] at hon
      cases hon
    rw [State.tick, Video.tick_of_idle (s := s.video) _ _ hidle, hbegun, ← hmask]
    by_cases hdraws : (advance s.ppu).drawsPixel
    · rw [pixelStage_of_layers_off hdraws hbg hspr, if_pos hdraws]
      rfl
    · rw [pixelStage_of_notDrawing hdraws, if_neg hdraws]
      rfl

/-! ### One frame (rules R305, R364) -/

theorem positionWf_ticks {s : State} (h : s.positionWf) (n : Nat) : (State.ticks n s).positionWf :=
  State.ticks_induction State.positionWf (fun _ => positionWf_tick) n s h

theorem State.ticks_succ (n : Nat) (s : State) : State.ticks (n + 1) s = (State.ticks n s).tick :=
  State.ticks_add n 1 s

@[simp] theorem State.ticks_ctrl (n : Nat) (s : State) : (State.ticks n s).ppu.ctrl = s.ppu.ctrl :=
  State.ticks_induction (fun t => t.ppu.ctrl = s.ppu.ctrl)
    (fun t h => ((tick_kept _ _ t.video).ctrl.trans (advance_kept t.ppu).2.1).trans h) n s rfl

/-- A tick raises the NMI only at 241:1, where it is enabled (rule R305). -/
theorem begun_nmi_raised {s : Video} (hclear : s.nmi = false) (hraised : s.begun.nmi = true) :
    (advance s.ppu).scanline = 241 ∧ (advance s.ppu).dot = 1 ∧ s.ppu.ctrl.getLsbD 7 = true := by
  by_cases h241 : (advance s.ppu).scanline = 241 ∧ (advance s.ppu).dot = 1
  · obtain ⟨hline, hdot⟩ := h241
    rw [begun_of_vblankStart hline hdot, hclear, Bool.false_or] at hraised
    exact ⟨hline, hdot, hraised⟩
  by_cases h261 : (advance s.ppu).scanline = 261 ∧ (advance s.ppu).dot = 1
  · rw [begun_of_vblankEnd h261.1 h261.2] at hraised
    cases hraised
  · rw [begun_of_quiet h241 h261, hclear] at hraised
    cases hraised

/-- The tick that arrives at 241:1 begins vblank. -/
theorem tick_at_vblankStart {s : State} (hline : s.tick.ppu.scanline = 241) (hdot : s.tick.ppu.dot = 1) :
    s.tick.ppu.vblank = true ∧ (s.ppu.ctrl.getLsbD 7 = true → s.tick.nmiPending = true) := by
  have hkept := tick_kept s.cart s.params.a12FilterDots s.video
  have hevent := tick_of_vblankStart (s := s.video) s.cart s.params.a12FilterDots (hkept.scanline.symm.trans hline)
    (hkept.dot.symm.trans hdot)
  rw [State.tick, hevent]
  exact ⟨rfl, fun hen => by simp [hen]⟩

/-- Settles O43: the position is the tick count on its grid, of 89,342 places, so it comes round once and passes each place
once. -/
theorem oneFrameRaisesOneNmi : Obligations.OneFrameRaisesOneNmi := by
  refine ⟨fun s hwf => ?frame, fun s hclear hraised => ?onlyThere⟩
  case frame =>
    have hposition (n : Nat) := positionWf_ticks hwf n
    have hticks (n : Nat) := State.ticks_ticks n s
    obtain ⟨hs, hd, hsum⟩ := hwf
    obtain ⟨hs', hd', hsum'⟩ := hposition 89342
    rw [hticks] at hsum'
    refine ⟨by omega, by omega, by omega, (171523 - (341 * s.ppu.scanline + s.ppu.dot)) % 89342,
      Nat.mod_lt _ (by decide), ?_⟩
    have honce (j : Nat) (hj : j < 89342) :
        ((State.ticks (j + 1) s).ppu.scanline = 241 ∧ (State.ticks (j + 1) s).ppu.dot = 1) ↔
        j = (171523 - (341 * s.ppu.scanline + s.ppu.dot)) % 89342 := by
      obtain ⟨hsj, hdj, hsumj⟩ := hposition (j + 1)
      rw [hticks] at hsumj
      omega
    obtain ⟨hline, hdot⟩ := (honce _ (Nat.mod_lt _ (by decide))).mpr rfl
    rw [State.ticks_succ] at hline hdot
    have hvblank := tick_at_vblankStart hline hdot
    rw [← State.ticks_succ, State.ticks_ctrl] at hvblank
    exact ⟨honce, hvblank.2, hvblank.1⟩
  case onlyThere =>
    have hkept := tick_kept s.cart s.params.a12FilterDots s.video
    have hnmi := tick_nmi s.cart s.params.a12FilterDots s.video
    obtain ⟨hline, hdot, hen⟩ := begun_nmi_raised (s := s.video) hclear (hnmi.symm.trans hraised)
    exact ⟨hkept.scanline.trans hline, hkept.dot.trans hdot, hen⟩

/-! ### What a tick draws (rules R384 to R387) -/

/-- The fetches leave the shifters as step (2) and (3) left them. -/
theorem fetchSteps_shifters (c : Cart) (f : Nat) (s : Video) :
    (fetchSteps c f s).ppu.bgLo = shifterAt s.ppu.dot s.ppu.bgLo s.ppu.ptLoLatch ∧
    (fetchSteps c f s).ppu.bgHi = shifterAt s.ppu.dot s.ppu.bgHi s.ppu.ptHiLatch ∧
    (fetchSteps c f s).ppu.atLo = shifterAt s.ppu.dot s.ppu.atLo (attrByte (s.ppu.atLatch.getLsbD 0)) ∧
    (fetchSteps c f s).ppu.atHi = shifterAt s.ppu.dot s.ppu.atHi (attrByte (s.ppu.atLatch.getLsbD 1)) := by
  obtain ⟨_, _, _, _, _, hfetch⟩ := fetchStage_writes c f { s with ppu := shiftStage s.ppu }
  unfold fetchSteps
  dsimp only
  generalize fetchStage c f { s with ppu := shiftStage s.ppu } = u at *
  obtain ⟨_, _, _, _, _, _, heval⟩ := evalStage_writes u.ppu
  obtain ⟨_, _, _, hsprite⟩ := spriteStage_writes c f { u with ppu := evalStage u.ppu }
  rw [hsprite, heval, hfetch, shiftStage_eq]
  exact ⟨rfl, rfl, rfl, rfl⟩

/-- Up to dot 256 the fetches leave the sprites as they are. -/
theorem fetchSteps_sprites (c : Cart) (f : Nat) {s : Video} (h : s.ppu.dot ≤ 256) :
    (fetchSteps c f s).ppu.slots = s.ppu.slots ∧ (fetchSteps c f s).ppu.spriteCount = s.ppu.spriteCount ∧
      (fetchSteps c f s).ppu.spr0OnLine = s.ppu.spr0OnLine := by
  obtain ⟨_, _, _, _, hshift⟩ := shiftStage_writes s.ppu
  obtain ⟨_, _, _, _, _, hfetch⟩ := fetchStage_writes c f { s with ppu := shiftStage s.ppu }
  rw [fetchSteps_drawing c f s h, hfetch, hshift]
  exact ⟨rfl, rfl, rfl⟩

theorem putPixel_eq (p : Ppu) (px : Nat) (c : Byte) :
    putPixel p px c = { p with framebuffer := p.framebuffer.write (256 * p.scanline + px) c } := rfl

/-- The last two steps leave what is drawn. -/
theorem laterStages_drawing (p : Ppu) : (oamaddrStage (scrollStage p)).framebuffer = p.framebuffer ∧
    (oamaddrStage (scrollStage p)).sprite0hit = p.sprite0hit := by
  obtain ⟨_, hscroll⟩ := scrollStage_writes p
  obtain ⟨_, hoam⟩ := oamaddrStage_writes (scrollStage p)
  rw [hoam, hscroll]
  exact ⟨rfl, rfl⟩

/-- The pixel drawn at a dot: its colour to its own cell, and the hit (rules R386, R387). -/
theorem tick_of_drawing (c : Cart) (f : Nat) {s : Video} {q : Ppu} (hq : q = advance s.ppu) (hdraws : q.drawsPixel) :
    (s.tick c f).ppu.framebuffer = s.ppu.framebuffer.write (256 * q.scanline + (q.dot - 1)) (colourAt q) ∧
      (s.tick c f).ppu.sprite0hit = (s.ppu.sprite0hit || hitAt q) := by
  subst hq
  have hbegun : s.begun = { s with ppu := advance s.ppu } :=
    begun_of_quiet (fun h => absurd hdraws.1 (by omega)) (fun h => absurd hdraws.1 (by omega))
  obtain ⟨_, _, _, _, hadvance⟩ := advance_writes s.ppu
  have hdrawn : (advance s.ppu).framebuffer = s.ppu.framebuffer ∧ (advance s.ppu).sprite0hit = s.ppu.sprite0hit := by
    rw [hadvance]
    exact ⟨rfl, rfl⟩
  rw [← hdrawn.1, ← hdrawn.2]
  obtain ⟨hline, hlo, hhi⟩ := hdraws
  by_cases hr : (advance s.ppu).renders
  · have hkept := fetchSteps_kept c f s.begun
    have hshifters := fetchSteps_shifters c f s.begun
    have hsprites := fetchSteps_sprites c f (s := s.begun) (by rw [hbegun]; exact hhi)
    have hflags := fetchSteps_flags c f (s := s.begun) (by rw [hbegun]; exact hhi)
    rw [Video.tick_of_renders c f hr]
    dsimp only
    rw [(laterStages_drawing _).1, (laterStages_drawing _).2]
    generalize fetchSteps c f s.begun = u at *
    rw [hbegun] at hkept hshifters hsprites hflags
    obtain ⟨hbgLo, hbgHi, hatLo, hatHi⟩ := hshifters
    obtain ⟨hslots, hcount, hzero⟩ := hsprites
    obtain ⟨-, hhit, -⟩ := hflags
    have hline' := hkept.kept.scanline
    have hdot' := hkept.kept.dot
    dsimp only at *
    rw [pixelStage_of_drawing ⟨by omega, by omega, by omega⟩, hdot',
      outputPixel_eq hlo (fun _ => bgPixel_eq hlo hkept.kept.mask hkept.kept.x hbgLo hbgHi hatLo hatHi)
        hkept.kept.mask hkept.kept.palette hslots hcount hzero hhi]
    simp only [putPixel_eq, hline', hkept.framebuffer, hhit, and_self]
  · obtain ⟨hbg, hspr⟩ := layers_off_of_idle hline hr
    have hoff : ¬ (advance s.ppu).rendering = true := by
      rw [rendering_eq, hbg, hspr]
      decide
    rw [Video.tick_of_idle c f hr, hbegun]
    dsimp only
    rw [pixelStage_of_drawing ⟨hline, hlo, hhi⟩,
      outputPixel_eq hlo (fun h => absurd h hoff) rfl rfl rfl rfl rfl hhi]
    exact ⟨rfl, rfl⟩

/-- No fetch sets the hit. -/
theorem fetchSteps_hit (c : Cart) (f : Nat) (s : Video) : (fetchSteps c f s).ppu.sprite0hit = s.ppu.sprite0hit := by
  obtain ⟨_, _, _, _, hshift⟩ := shiftStage_writes s.ppu
  obtain ⟨_, _, _, _, _, hfetch⟩ := fetchStage_writes c f { s with ppu := shiftStage s.ppu }
  unfold fetchSteps
  dsimp only
  generalize fetchStage c f { s with ppu := shiftStage s.ppu } = u at *
  obtain ⟨_, _, _, _, _, _, heval⟩ := evalStage_writes u.ppu
  obtain ⟨_, _, _, hsprite⟩ := spriteStage_writes c f { u with ppu := evalStage u.ppu }
  rw [hsprite, heval, hfetch, hshift]

/-- Step (1) clears the hit at 261:1 alone. -/
theorem begun_hit_of_not261 {s : Video} (h : ¬ ((advance s.ppu).scanline = 261 ∧ (advance s.ppu).dot = 1)) :
    s.begun.ppu.sprite0hit = s.ppu.sprite0hit := by
  obtain ⟨_, _, _, _, hadvance⟩ := advance_writes s.ppu
  by_cases h241 : (advance s.ppu).scanline = 241 ∧ (advance s.ppu).dot = 1
  · rw [begun_of_vblankStart h241.1 h241.2, hadvance]
  · rw [begun_of_quiet h241 h, hadvance]

/-- Any other dot draws nothing, and sets no hit. -/
theorem tick_of_notDrawing (c : Cart) (f : Nat) {s : Video} (h : ¬ (advance s.ppu).drawsPixel) :
    (s.tick c f).ppu.framebuffer = s.ppu.framebuffer ∧ (s.tick c f).ppu.sprite0hit = s.begun.ppu.sprite0hit := by
  have hbegun := begun_kept s
  have hframebuffer : s.begun.ppu.framebuffer = s.ppu.framebuffer := by
    obtain ⟨_, _, _, _, _, hwrites⟩ := begun_writes s
    obtain ⟨_, _, _, _, hadvance⟩ := advance_writes s.ppu
    rw [hwrites, hadvance]
  by_cases hr : (advance s.ppu).renders
  · have hkept := fetchSteps_kept c f s.begun
    have hhit : (fetchSteps c f s.begun).ppu.sprite0hit = s.begun.ppu.sprite0hit := fetchSteps_hit c f s.begun
    rw [Video.tick_of_renders c f hr]
    dsimp only
    rw [(laterStages_drawing _).1, (laterStages_drawing _).2, pixelStage_of_notDrawing, hkept.framebuffer, hframebuffer, hhit]
    · exact ⟨rfl, rfl⟩
    · rw [Ppu.drawsPixel, hkept.kept.scanline, hkept.kept.dot, hbegun.scanline, hbegun.dot]
      exact h
  · rw [Video.tick_of_idle c f hr]
    dsimp only
    rw [pixelStage_of_notDrawing, hframebuffer]
    · exact ⟨rfl, rfl⟩
    · rw [Ppu.drawsPixel, hbegun.scanline, hbegun.dot]
      exact h

/-- Entries of six bits give colours of six bits. -/
theorem colourAt_lt {p : Ppu} (h : ∀ i, (p.palette.read i).toNat < 64) : (colourAt p).toNat < 64 := by
  have hentry := h (paletteEntryAt p)
  unfold colourAt
  split
  · rw [toNat_and_field 4 2 rfl]
    omega
  · exact hentry

/-- Settles O47: the cell of the dot by `tick_of_drawing`, the others by the laws of a memory. -/
theorem eachVisibleDotWritesItsCell : Obligations.EachVisibleDotWritesItsCell := by
  rintro s q hq hwf
  have hpalette : q.palette = s.ppu.palette := by rw [hq]; exact (advance_kept s.ppu).2.2.2.2.2.1
  have hmask : q.mask = s.ppu.mask := by rw [hq]; exact (advance_kept s.ppu).2.2.1
  split
  · next hdraws =>
    obtain ⟨hframebuffer, -⟩ := tick_of_drawing s.cart s.params.a12FilterDots (s := s.video) hq hdraws
    refine ⟨?cell, fun hidle => ?backdrop, fun hcolours => ?sixBits, fun i hi => ?others⟩
    case cell =>
      rw [State.tick, State.withVideo_ppu, hframebuffer]
      exact Memory.wf_read_write _ _ hwf
    case backdrop =>
      obtain ⟨hbg, hspr⟩ := layers_off_of_idle hdraws.1 hidle
      have hentry : paletteEntryAt q = 0 := by
        simp only [paletteEntryAt, bgPixelAt, spriteAt, hbg, hspr, Bool.false_and, Bool.false_eq_true, if_false, if_true]
      rw [colourAt, hentry, hpalette, hmask]
    case sixBits => exact colourAt_lt (by rwa [hpalette])
    case others =>
      rw [State.tick, State.withVideo_ppu, hframebuffer]
      exact Memory.read_write_other _ _ _ _ hi
  · next hnot =>
    rw [hq] at hnot
    exact (tick_of_notDrawing s.cart s.params.a12FilterDots (s := s.video) hnot).1

/-- What a hit needs (rule R386). -/
theorem hitAt_needs {p : Ppu} (h : hitAt p = true) :
    p.mask.getLsbD 3 = true ∧ p.mask.getLsbD 4 = true ∧ p.dot ≠ 256 ∧
      (p.dot ≤ 8 → p.mask.getLsbD 1 = true ∧ p.mask.getLsbD 2 = true) := by
  simp only [hitAt, Bool.and_eq_true, bne_iff_ne, ne_eq] at h
  obtain ⟨⟨⟨hopaque, hdot⟩, -⟩, hsprite⟩ := h
  have hbg : (p.mask.getLsbD 3 && (decide (8 < p.dot) || p.mask.getLsbD 1)) = true := by
    by_contra hoff
    exact hopaque (by rw [bgPixelAt, if_neg hoff])
  have hspr : (p.mask.getLsbD 4 && (decide (8 < p.dot) || p.mask.getLsbD 2)) = true := by
    by_contra hoff
    rw [spriteAt, if_neg hoff] at hsprite
    cases hsprite
  simp only [Bool.and_eq_true, Bool.or_eq_true, decide_eq_true_eq] at hbg hspr
  exact ⟨hbg.1, hspr.1, hdot, fun hleft => ⟨hbg.2.resolve_left (by omega), hspr.2.resolve_left (by omega)⟩⟩

/-- Settles O48: a drawing dot adds `hitAt` to the flag, any other keeps it, but for the end of vblank. -/
theorem spriteZeroHitNeedsBothLayers : Obligations.SpriteZeroHitNeedsBothLayers := by
  have hset : ∀ (s : State) (q : Ppu), q = advance s.ppu → ¬ (q.scanline = 261 ∧ q.dot = 1) →
      (s.tick.ppu.sprite0hit = true ↔ s.ppu.sprite0hit = true ∨ (q.drawsPixel ∧ hitAt q = true)) := by
    rintro s q hq h261
    by_cases hdraws : q.drawsPixel
    · obtain ⟨-, hhit⟩ := tick_of_drawing s.cart s.params.a12FilterDots (s := s.video) hq hdraws
      rw [State.tick, State.withVideo_ppu, hhit, Bool.or_eq_true, State.video_ppu]
      exact or_congr_right (and_iff_right hdraws).symm
    · subst hq
      have hkept : s.video.begun.ppu.sprite0hit = s.ppu.sprite0hit := begun_hit_of_not261 h261
      obtain ⟨-, hhit⟩ := tick_of_notDrawing s.cart s.params.a12FilterDots (s := s.video) hdraws
      rw [State.tick, State.withVideo_ppu, hhit, hkept]
      exact (or_iff_left fun h => hdraws h.1).symm
  refine ⟨hset, fun s hclear hraised => ?_⟩
  have hkept := tick_kept s.cart s.params.a12FilterDots s.video
  have h261 : ¬ ((advance s.ppu).scanline = 261 ∧ (advance s.ppu).dot = 1) := by
    rintro ⟨hline, hdot⟩
    obtain ⟨-, hcleared, -⟩ := tick_of_vblankEnd s.cart s.params.a12FilterDots (s := s.video) hline hdot
    exact Bool.false_ne_true (hcleared.symm.trans hraised)
  obtain hbefore | ⟨⟨hline, hlo, hhi⟩, hhit⟩ := (hset s _ rfl h261).mp hraised
  · exact absurd (hclear.symm.trans hbefore) Bool.false_ne_true
  obtain ⟨hbg, hspr, hdot, hleft⟩ := hitAt_needs hhit
  have hmask : (advance s.ppu).mask = s.ppu.mask := (advance_kept s.ppu).2.2.1
  rw [hmask] at hbg hspr hleft
  have hline' : s.tick.ppu.scanline = (advance s.ppu).scanline := hkept.scanline
  have hdot' : s.tick.ppu.dot = (advance s.ppu).dot := hkept.dot
  rw [hline', hdot']
  exact ⟨hbg, hspr, hline, hlo, by omega, hleft⟩

end Sys2Proof.Machine
end

section
/-! PROOFS. The fetch schedule of a rendering line and sprite evaluation (spec/61_ppu.md sections 4 and 5). -/

namespace Sys2Proof.Machine

/-! ### Which stages fetch at a dot -/

/-- Outside dots 257 to 320 only the background is fetched. -/
theorem fetchSteps_background (c : Cart) (f : Nat) {s : Video} (h : ¬ (257 ≤ s.ppu.dot ∧ s.ppu.dot ≤ 320)) :
    fetchSteps c f s = fetchStage c f { s with ppu := shiftStage s.ppu } := by
  have hdot := (fetchStage_kept c f { s with ppu := shiftStage s.ppu }).kept.dot
  rw [(shiftStage_kept s.ppu).1.dot] at hdot
  unfold fetchSteps
  dsimp only
  generalize fetchStage c f { s with ppu := shiftStage s.ppu } = u at *
  have heval : evalStage u.ppu = u.ppu := by rw [evalStage, if_neg (by omega)]
  have hsprite : spriteStage c f u = u := by
    rw [spriteStage_eq]
    dsimp only
    rw [if_neg (by omega)]
  rw [heval, hsprite]

/-- At dots 257 to 320 only the sprites are. -/
theorem fetchSteps_spriteDots (c : Cart) (f : Nat) {s : Video} (h : 257 ≤ s.ppu.dot ∧ s.ppu.dot ≤ 320) :
    fetchSteps c f s = spriteStage c f { s with ppu := evalStage (shiftStage s.ppu) } := by
  have hdot := (shiftStage_kept s.ppu).1.dot
  have hfetch : fetchStage c f { s with ppu := shiftStage s.ppu } = { s with ppu := shiftStage s.ppu } := by
    rw [fetchStage_eq]
    dsimp only
    rw [hdot, if_neg (by omega), if_neg (by omega), if_neg (by omega), if_neg (by omega)]
  rw [fetchSteps, hfetch]

/-! ### The address driven, and what takes the byte there (rules R371 to R374, R381, R383) -/

/-- The mapper once it has been told of the address driven, if any. -/
def Mapper.driven (f : Nat) (m : Mapper) (now : Nat) : Option (BitVec 14) → Mapper
  | some a => m.notify f a now
  | none => m

/-- The address driven outside dots 257 to 320. -/
theorem drivenAddr_background {p : Ppu} (h : ¬ (257 ≤ p.dot ∧ p.dot ≤ 320)) : drivenAddr p =
    if isTileDot p.dot ∧ p.dot % 8 = 1 ∨ p.dot = 337 ∨ p.dot = 339 then some (ntAddrOf p.v)
    else if isTileDot p.dot ∧ p.dot % 8 = 3 then some (atAddrOf p.v)
    else if isTileDot p.dot ∧ p.dot % 8 = 5 then some (ptAddrOf p)
    else if isTileDot p.dot ∧ p.dot % 8 = 7 then some (ptAddrOf p + 8#14)
    else none := by
  unfold drivenAddr
  by_cases htile : isTileDot p.dot
  · have hmod := Nat.mod_lt p.dot (show 0 < 8 by decide)
    rw [if_pos htile]
    simp only [htile, true_and, show ¬ (p.dot = 337 ∨ p.dot = 339) by omega, or_false]
    generalize p.dot % 8 = k at hmod
    interval_cases k <;> rfl
  · simp only [htile, false_and, false_or, if_false, h]

/-- The address driven at dots 257 to 320. -/
theorem drivenAddr_spriteDots {p : Ppu} (h : 257 ≤ p.dot ∧ p.dot ≤ 320) : drivenAddr p =
    if p.dot % 8 = 1 ∨ p.dot % 8 = 3 then some (ntAddrOf p.v)
    else if p.dot % 8 = 5 then some (spriteAddr p ((p.dot - 257) / 8))
    else if p.dot % 8 = 7 then some (spriteAddr p ((p.dot - 257) / 8) + 8#14)
    else none := by
  have hmod := Nat.mod_lt p.dot (show 0 < 8 by decide)
  rw [drivenAddr, if_neg (by omega), if_pos h]
  generalize p.dot % 8 = k at hmod
  interval_cases k <;> rfl

/-- What the background fetch of a dot does: the mapper is told of the address, and the latch of the dot takes the byte. -/
theorem fetchStage_fields (c : Cart) (f : Nat) (s : Video) (h : ¬ (257 ≤ s.ppu.dot ∧ s.ppu.dot ≤ 320)) :
    (fetchStage c f s).mapper = s.mapper.driven f s.ppu.ticks (drivenAddr s.ppu) ∧
    (fetchStage c f s).ppu =
      { s.ppu with
        ntLatch := if (isTileDot s.ppu.dot ∧ s.ppu.dot % 8 = 1) ∨ s.ppu.dot = 337 ∨ s.ppu.dot = 339 then
            ppuPeek c (s.mapper.driven f s.ppu.ticks (drivenAddr s.ppu)) s.ppu (ntAddrOf s.ppu.v)
          else s.ppu.ntLatch
        atLatch := if isTileDot s.ppu.dot ∧ s.ppu.dot % 8 = 3 then
            atFieldOf s.ppu.v (ppuPeek c (s.mapper.driven f s.ppu.ticks (drivenAddr s.ppu)) s.ppu (atAddrOf s.ppu.v))
          else s.ppu.atLatch
        ptLoLatch := if isTileDot s.ppu.dot ∧ s.ppu.dot % 8 = 5 then
            ppuPeek c (s.mapper.driven f s.ppu.ticks (drivenAddr s.ppu)) s.ppu (ptAddrOf s.ppu)
          else s.ppu.ptLoLatch
        ptHiLatch := if isTileDot s.ppu.dot ∧ s.ppu.dot % 8 = 7 then
            ppuPeek c (s.mapper.driven f s.ppu.ticks (drivenAddr s.ppu)) s.ppu (ptAddrOf s.ppu + 8#14)
          else s.ppu.ptHiLatch } := by
  rw [fetchStage_eq, drivenAddr_background h]
  dsimp only
  by_cases h1 : isTileDot s.ppu.dot ∧ s.ppu.dot % 8 = 1 ∨ s.ppu.dot = 337 ∨ s.ppu.dot = 339
  · have h3 : ¬ (isTileDot s.ppu.dot ∧ s.ppu.dot % 8 = 3) := by omega
    have h5 : ¬ (isTileDot s.ppu.dot ∧ s.ppu.dot % 8 = 5) := by omega
    have h7 : ¬ (isTileDot s.ppu.dot ∧ s.ppu.dot % 8 = 7) := by omega
    simp only [if_pos h1, if_neg h3, if_neg h5, if_neg h7]
    exact ⟨rfl, rfl⟩
  by_cases h3 : isTileDot s.ppu.dot ∧ s.ppu.dot % 8 = 3
  · have h5 : ¬ (isTileDot s.ppu.dot ∧ s.ppu.dot % 8 = 5) := by omega
    have h7 : ¬ (isTileDot s.ppu.dot ∧ s.ppu.dot % 8 = 7) := by omega
    simp only [if_neg h1, if_pos h3, if_neg h5, if_neg h7]
    exact ⟨rfl, rfl⟩
  by_cases h5 : isTileDot s.ppu.dot ∧ s.ppu.dot % 8 = 5
  · have h7 : ¬ (isTileDot s.ppu.dot ∧ s.ppu.dot % 8 = 7) := by omega
    simp only [if_neg h1, if_neg h3, if_pos h5, if_neg h7]
    exact ⟨rfl, rfl⟩
  by_cases h7 : isTileDot s.ppu.dot ∧ s.ppu.dot % 8 = 7
  · simp only [if_neg h1, if_neg h3, if_neg h5, if_pos h7]
    exact ⟨rfl, rfl⟩
  · simp only [if_neg h1, if_neg h3, if_neg h5, if_neg h7]
    exact ⟨rfl, trivial⟩

/-- What the sprite fetch of a dot does. -/
theorem spriteStage_fields (c : Cart) (f : Nat) (s : Video) (h : 257 ≤ s.ppu.dot ∧ s.ppu.dot ≤ 320) :
    (spriteStage c f s).mapper = s.mapper.driven f s.ppu.ticks (drivenAddr s.ppu) ∧
    (spriteStage c f s).ppu =
      { s.ppu with
        sprLoLatch := if s.ppu.dot % 8 = 5 then
            ppuPeek c (s.mapper.driven f s.ppu.ticks (drivenAddr s.ppu)) s.ppu (spriteAddr s.ppu ((s.ppu.dot - 257) / 8))
          else s.ppu.sprLoLatch
        slots := if s.ppu.dot % 8 = 7 then
            s.ppu.slots.setIfInBounds ((s.ppu.dot - 257) / 8) (loadedSlot s.ppu ((s.ppu.dot - 257) / 8) s.ppu.sprLoLatch
              (ppuPeek c (s.mapper.driven f s.ppu.ticks (drivenAddr s.ppu)) s.ppu
                (spriteAddr s.ppu ((s.ppu.dot - 257) / 8) + 8#14)))
          else s.ppu.slots } := by
  rw [spriteStage_eq, drivenAddr_spriteDots h]
  dsimp only
  rw [if_pos h]
  by_cases h1 : s.ppu.dot % 8 = 1 ∨ s.ppu.dot % 8 = 3
  · have h5 : ¬ s.ppu.dot % 8 = 5 := by omega
    have h7 : ¬ s.ppu.dot % 8 = 7 := by omega
    simp only [if_pos h1, if_neg h5, if_neg h7]
    exact ⟨rfl, trivial⟩
  by_cases h5 : s.ppu.dot % 8 = 5
  · have h7 : ¬ s.ppu.dot % 8 = 7 := by omega
    simp only [if_neg h1, if_pos h5, if_neg h7]
    exact ⟨rfl, rfl⟩
  by_cases h7 : s.ppu.dot % 8 = 7
  · simp only [if_neg h1, if_neg h5, if_pos h7]
    exact ⟨rfl, rfl⟩
  · simp only [if_neg h1, if_neg h5, if_neg h7]
    exact ⟨rfl, trivial⟩

/-! ### The whole tick of a rendering line -/

/-- After the fetches a rendering tick changes the pixel, `v` and OAMADDR alone. -/
theorem laterStages_writes (p : Ppu) : ∃ v h b, oamaddrStage (scrollStage (pixelStage p)) =
    { p with
      v := v, sprite0hit := h, framebuffer := b, oamaddr := if 257 ≤ p.dot ∧ p.dot ≤ 320 then 0#8 else p.oamaddr } := by
  obtain ⟨h, b, hpixel⟩ := pixelStage_writes p
  obtain ⟨v, hscroll⟩ := scrollStage_writes (pixelStage p)
  refine ⟨v, h, b, ?_⟩
  rw [hscroll, hpixel, oamaddrStage]
  by_cases hdots : 257 ≤ p.dot ∧ p.dot ≤ 320
  · rw [if_pos (by simpa [spriteDot] using hdots), if_pos hdots]
  · rw [if_neg (by simpa [spriteDot] using hdots), if_neg hdots]

/-- A rendering tick outside dots 257 to 320. -/
theorem tick_background (c : Cart) (f : Nat) {s : Video} (hr : (advance s.ppu).renders)
    (h : ¬ (257 ≤ (advance s.ppu).dot ∧ (advance s.ppu).dot ≤ 320)) :
    let q := advance s.ppu
    let m := s.mapper.driven f q.ticks (drivenAddr q)
    (s.tick c f).mapper = m ∧ ∃ v hit b vb fr o, (s.tick c f).ppu =
      { shiftStage q with
        v := v, sprite0hit := hit, framebuffer := b, vblank := vb, frameReady := fr, overflow := o
        ntLatch := if (isTileDot q.dot ∧ q.dot % 8 = 1) ∨ q.dot = 337 ∨ q.dot = 339 then
            ppuPeek c m q (ntAddrOf q.v) else q.ntLatch
        atLatch := if isTileDot q.dot ∧ q.dot % 8 = 3 then atFieldOf q.v (ppuPeek c m q (atAddrOf q.v)) else q.atLatch
        ptLoLatch := if isTileDot q.dot ∧ q.dot % 8 = 5 then ppuPeek c m q (ptAddrOf q) else q.ptLoLatch
        ptHiLatch := if isTileDot q.dot ∧ q.dot % 8 = 7 then ppuPeek c m q (ptAddrOf q + 8#14) else q.ptHiLatch } := by
  dsimp only
  rw [Video.tick_of_renders c f hr]
  obtain ⟨vb, fr, hit, o, n, hbegun⟩ := begun_writes s
  generalize advance s.ppu = q at *
  rw [hbegun, fetchSteps_background _ _ h]
  dsimp only
  have hshift : shiftStage { q with vblank := vb, frameReady := fr, sprite0hit := hit, overflow := o } =
      { shiftStage q with vblank := vb, frameReady := fr, sprite0hit := hit, overflow := o } := by
    rw [shiftStage_eq, shiftStage_eq]
  have hdot : (shiftStage q).dot = q.dot := (shiftStage_kept q).1.dot
  obtain ⟨hm, hp⟩ := fetchStage_fields c f
    { s with ppu := { shiftStage q with vblank := vb, frameReady := fr, sprite0hit := hit, overflow := o }, nmi := n }
    (by rwa [hdot])
  obtain ⟨v, hit', b, hlater⟩ := laterStages_writes (fetchStage c f
    { s with ppu := { shiftStage q with vblank := vb, frameReady := fr, sprite0hit := hit, overflow := o }, nmi := n }).ppu
  rw [hshift, hlater, hm, hp]
  dsimp only
  rw [if_neg (by rwa [hdot]), shiftStage_eq]
  exact ⟨rfl, v, hit', b, vb, fr, o, rfl⟩

/-- A rendering tick at dots 257 to 320, in terms of the PPU after its steps (2), (3) and (5). -/
theorem tick_spriteDots (c : Cart) (f : Nat) {s : Video} (hr : (advance s.ppu).renders)
    (h : 257 ≤ (advance s.ppu).dot ∧ (advance s.ppu).dot ≤ 320) :
    let q := advance s.ppu
    let p := evalStage (shiftStage q)
    let i := (q.dot - 257) / 8
    let m := s.mapper.driven f q.ticks (drivenAddr p)
    (s.tick c f).mapper = m ∧ ∃ v hit b, (s.tick c f).ppu =
      { p with
        v := v, sprite0hit := hit, framebuffer := b, oamaddr := 0#8
        sprLoLatch := if q.dot % 8 = 5 then ppuPeek c m p (spriteAddr p i) else p.sprLoLatch
        slots := if q.dot % 8 = 7 then
            p.slots.setIfInBounds i (loadedSlot p i p.sprLoLatch (ppuPeek c m p (spriteAddr p i + 8#14)))
          else p.slots } := by
  dsimp only
  have hbegun : s.begun = { s with ppu := advance s.ppu } := begun_of_quiet (by omega) (by omega)
  rw [Video.tick_of_renders c f hr, hbegun]
  generalize advance s.ppu = q at *
  have hkept := (shiftStage_kept q).1.trans (evalStage_kept (shiftStage q)).1
  rw [fetchSteps_spriteDots _ _ h]
  dsimp only
  generalize evalStage (shiftStage q) = p at *
  rw [← hkept.dot, ← hkept.ticks]
  rw [← hkept.dot] at h
  obtain ⟨hm, hp⟩ := spriteStage_fields c f { s with ppu := p } h
  obtain ⟨v, hit, b, hlater⟩ := laterStages_writes (spriteStage c f { s with ppu := p }).ppu
  rw [hlater, hm, hp]
  dsimp only
  rw [if_pos h]
  exact ⟨rfl, v, hit, b, rfl⟩

/-- After dot 257 step (5) does nothing. -/
theorem evalStage_of_ne {p : Ppu} (h : p.dot ≠ 257) : evalStage p = p := if_neg h

/-- Shifting and evaluating do not change the address driven. -/
theorem drivenAddr_evalStage (q : Ppu) : drivenAddr (evalStage (shiftStage q)) = drivenAddr q := by
  obtain ⟨_, _, _, _, _, _, heval⟩ := evalStage_writes (shiftStage q)
  have hdot := (shiftStage_kept q).1.dot
  by_cases h257 : q.dot = 257
  · have hfirst : ∀ p : Ppu, p.dot = 257 → drivenAddr p = some (ntAddrOf p.v) := by
      intro p hp
      rw [drivenAddr_spriteDots (by omega), if_pos (by omega)]
    rw [hfirst q h257, hfirst _ (by rw [heval]; exact hdot.trans h257), heval, shiftStage_eq]
  · rw [evalStage_of_ne (by rwa [hdot]), shiftStage_eq]
    rfl

/-! ### Pattern addresses of sprites (rule R383) -/

theorem entry_of_lt {p : Ppu} {i : Nat} {e : SecEntry} (hi : i < p.secCount) (he : p.sec[i]? = some e) :
    p.entry i = some e := by
  rw [Ppu.entry, if_pos hi, he]

theorem entry_of_le {p : Ppu} {i : Nat} (hi : p.secCount ≤ i) : p.entry i = none := if_neg (Nat.not_lt.mpr hi)

/-- The row of a sprite that the line crosses. -/
theorem spriteRow_eq {p : Ppu} {e : SecEntry} {row : Nat} (h : p.scanline = e.y.toNat + row) :
    spriteRow p e = BitVec.ofNat 16 row := by
  have hy : e.y.setWidth 16 = BitVec.ofNat 16 e.y.toNat := (BitVec.ofNat_toNat ..).symm
  rw [spriteRow, h, hy, Nat.add_comm, BitVec.ofNat_add, BitVec.add_sub_cancel]

theorem sub_ofNat_of_le {a b : Nat} (h : b ≤ a) : BitVec.ofNat 16 a - BitVec.ofNat 16 b = BitVec.ofNat 16 (a - b) := by
  conv_lhs => rw [← Nat.sub_add_cancel h, BitVec.ofNat_add]
  rw [BitVec.add_sub_cancel]

/-- An 8-line sprite: the pattern table of PPUCTRL, the tile and the line. -/
theorem spriteEntryAddr_small {p : Ppu} {e : SecEntry} {row : Nat} (hsize : p.ctrl.getLsbD 5 = false)
    (h : p.scanline = e.y.toNat + row) (hrow : row < 8) : (spriteEntryAddr p e).toNat =
      (if p.ctrl.getLsbD 3 then 4096 else 0) + 16 * e.tile.toNat + (if e.attr.getLsbD 7 then 7 - row else row) := by
  have htile := e.tile.isLt
  have hline : (if e.attr.getLsbD 7 then 7#16 - BitVec.ofNat 16 row else BitVec.ofNat 16 row) =
      BitVec.ofNat 16 (if e.attr.getLsbD 7 then 7 - row else row) := by
    split
    · exact sub_ofNat_of_le (by omega)
    · rfl
  have hlt : (if e.attr.getLsbD 7 then 7 - row else row) < 8 := by split <;> omega
  have htable : (if p.sprTable then 0x1000#16 else 0#16) = BitVec.ofNat 16 (if p.ctrl.getLsbD 3 then 4096 else 0) := by
    unfold Ppu.sprTable
    split <;> rfl
  have hbase : (if p.ctrl.getLsbD 3 then 4096 else 0) ≤ 4096 := by split <;> omega
  simp only [spriteEntryAddr, Ppu.spr16, hsize, Bool.false_eq_true, if_false, spriteRow_eq h, hline, htable]
  simp only [BitVec.toNat_setWidth, BitVec.toNat_add, BitVec.toNat_mul, BitVec.toNat_ofNat]
  omega

/-- A 16-line sprite: the pattern table of its tile number, the half of the pair and the line in it. -/
theorem spriteEntryAddr_tall {p : Ppu} {e : SecEntry} {row line : Nat} (hsize : p.ctrl.getLsbD 5 = true)
    (h : p.scanline = e.y.toNat + row) (hrow : row < 16) (hline : line = if e.attr.getLsbD 7 then 15 - row else row) :
    (spriteEntryAddr p e).toNat =
      4096 * (e.tile.toNat % 2) + 16 * (e.tile.toNat / 2 * 2 + line / 8) + line % 8 := by
  have htile := e.tile.isLt
  have hflip : (if e.attr.getLsbD 7 then 15#16 - BitVec.ofNat 16 row else BitVec.ofNat 16 row) = BitVec.ofNat 16 line := by
    rw [hline]
    split
    · exact sub_ofNat_of_le (by omega)
    · rfl
  have hlt : line < 16 := by
    rw [hline]
    split <;> omega
  have hnum : (BitVec.ofNat 16 line).toNat = line := by
    rw [BitVec.toNat_ofNat]
    omega
  have htable : (if e.tile.getLsbD 0 then 0x1000#16 else 0#16) = BitVec.ofNat 16 (4096 * (e.tile.toNat % 2)) := by
    rw [bit0_eq]
    obtain heven | hodd := Nat.mod_two_eq_zero_or_one e.tile.toNat
    · rw [heven]; rfl
    · rw [hodd]; rfl
  have hhalf : (if 8 ≤ line then 1#16 else 0#16) = BitVec.ofNat 16 (line / 8) := by
    split
    · rw [show line / 8 = 1 by omega]
    · rw [show line / 8 = 0 by omega]
  have hfine : (BitVec.ofNat 16 line &&& 7#16).toNat = line % 8 := by
    rw [toNat_and_field 0 3 rfl, hnum]
    omega
  simp only [spriteEntryAddr, Ppu.spr16, hsize, if_true, spriteRow_eq h, hflip, htable, hnum, hhalf]
  simp only [BitVec.toNat_setWidth, BitVec.toNat_add, BitVec.toNat_mul, BitVec.toNat_ofNat, hfine, toNat_and_FE]
  omega

/-- Settles O45: the tick by the dots at which it fetches for the background, evaluates, or fetches for the sprites. -/
theorem dotsFollowTheFetchSchedule : Obligations.DotsFollowTheFetchSchedule := by
  refine ⟨?tick, fun p i => ⟨fun e row line hi he hrow hlt hline => ?shown, fun hi => ?empty⟩⟩
  case shown =>
    rw [spriteAddr, entry_of_lt hi he]
    cases hsize : p.ctrl.getLsbD 5
    · simp only [hsize, Bool.false_eq_true, if_false] at hlt hline ⊢
      rw [hline]
      exact spriteEntryAddr_small hsize hrow hlt
    · simp only [hsize, if_true] at hlt hline ⊢
      exact spriteEntryAddr_tall hsize hrow hlt hline
  case empty =>
    rw [spriteAddr, entry_of_le hi]
    rfl
  case tick =>
    rintro s q r m rfl hr rfl rfl
    obtain ⟨t, d, l, n, hadvance⟩ := advance_writes s.ppu
    have hticks : (advance s.ppu).ticks = s.ppu.ticks + 1 := (advance_kept s.ppu).1
    by_cases hdots : 257 ≤ (advance s.ppu).dot ∧ (advance s.ppu).dot ≤ 320
    · obtain ⟨hm, v, hit, b, hp⟩ := tick_spriteDots s.cart s.params.a12FilterDots (s := s.video) hr hdots
      have hdriven := drivenAddr_evalStage (advance s.ppu)
      rw [← hm] at hp
      change s.tick.mapper = _ at hm
      change s.tick.ppu = _ at hp
      rw [State.video_ppu] at hp hm
      obtain ⟨_, _, _, _, _, _, heval⟩ := evalStage_writes (shiftStage (advance s.ppu))
      have hlater : (advance s.ppu).dot ≠ 257 → evalStage (shiftStage (advance s.ppu)) = shiftStage (advance s.ppu) :=
        fun h => evalStage_of_ne (by rwa [(shiftStage_kept _).1.dot])
      refine ⟨?mapper, ?nt, ?attr, ?ptLo, ?ptHi, ?bgLo, ?bgHi, ?atLo, ?atHi, ?sprLo, fun i e he => ?slot, ?oamaddr⟩
      case mapper =>
        rw [hm, hdriven, hticks]
        cases drivenAddr (advance s.ppu) <;> rfl
      case nt | attr | ptLo | ptHi => rw [if_neg (by omega), hp, heval, shiftStage_eq, hadvance]
      case bgLo | bgHi | atLo | atHi => rw [hp, heval, shiftStage_eq, hadvance]
      case sprLo =>
        rw [hp]
        dsimp only
        by_cases hlow : (advance s.ppu).dot % 8 = 5
        · rw [if_pos hlow, if_pos ⟨hdots.1, hdots.2, hlow⟩, hlater (by omega), shiftStage_eq, hadvance]
          rfl
        · rw [if_neg hlow, if_neg (by omega), heval, shiftStage_eq, hadvance]
      case slot =>
        obtain ⟨hi, -⟩ := Vector.getElem?_eq_some_iff.mp he
        rw [hp]
        dsimp only
        by_cases hload : (advance s.ppu).dot = 263 + 8 * i
        · have hslot : ((advance s.ppu).dot - 257) / 8 = i := by omega
          rw [if_pos (by omega), if_pos hload, hslot, Vector.getElem?_setIfInBounds_self_of_lt hi, hlater (by omega),
            shiftStage_eq, loadedSlot]
          by_cases hshown : i < s.ppu.secCount
          · rw [entry_of_lt (e := e) (by rw [hadvance]; exact hshown) (by rw [hadvance]; exact he), if_pos hshown, hadvance]
            rfl
          · rw [entry_of_le (by rw [hadvance]; exact Nat.not_lt.mp hshown), if_neg hshown]
        · rw [if_neg hload]
          split
          · rw [Vector.getElem?_setIfInBounds_ne (by omega), heval, shiftStage_eq, hadvance]
          · rw [heval, shiftStage_eq, hadvance]
      case oamaddr => rw [if_pos hdots, hp]
    · obtain ⟨hm, v, hit, b, vb, fr, o, hp⟩ := tick_background s.cart s.params.a12FilterDots (s := s.video) hr hdots
      rw [shiftStage_eq, ← hm] at hp
      change s.tick.mapper = _ at hm
      change s.tick.ppu = _ at hp
      rw [State.video_ppu] at hp hm
      refine ⟨?mapper, ?nt, ?attr, ?ptLo, ?ptHi, ?bgLo, ?bgHi, ?atLo, ?atHi, ?sprLo, fun i e he => ?slot, ?oamaddr⟩
      case mapper =>
        rw [hm, hticks]
        cases drivenAddr (advance s.ppu) <;> rfl
      case nt | attr | ptLo | ptHi =>
        rw [hp, hadvance]
        rfl
      case bgLo | bgHi | atLo | atHi => rw [hp, hadvance]
      case sprLo => rw [if_neg (by omega), hp, hadvance]
      case slot =>
        obtain ⟨hi, -⟩ := Vector.getElem?_eq_some_iff.mp he
        rw [if_neg (by omega), hp, hadvance]
      case oamaddr => rw [if_neg hdots, hp, hadvance]

/-! ### Sprite evaluation (rule R382) -/

/-- Sprite `n` of OAM lies on the line. -/
def Ppu.inRange (p : Ppu) (n : Nat) : Bool :=
  decide ((p.oam.read (4 * n)).toNat ≤ p.scanline) &&
    decide (p.scanline < (p.oam.read (4 * n)).toNat + (if p.ctrl.getLsbD 5 then 16 else 8))

/-- The entry that evaluation copies for sprite `n`. -/
def Ppu.oamEntry (p : Ppu) (n : Nat) : SecEntry :=
  ⟨p.oam.read (4 * n), p.oam.read (4 * n + 1), p.oam.read (4 * n + 2), p.oam.read (4 * n + 3)⟩

theorem evalSprite_of_not_inRange {p : Ppu} {n : Nat} (h : p.inRange n = false) : evalSprite p n = p := by
  have hout : ¬ ((p.oam.read (4 * n)).toNat ≤ p.scanline ∧ p.scanline - (p.oam.read (4 * n)).toNat < p.spriteHeight) := by
    simp only [Ppu.inRange, Bool.and_eq_false_iff, decide_eq_false_iff_not] at h
    unfold Ppu.spriteHeight Ppu.spr16
    omega
  rw [evalSprite]
  exact if_neg hout

theorem evalSprite_of_inRange {p : Ppu} {n : Nat} (h : p.inRange n = true) : evalSprite p n =
    if p.secCount < 8 then
      { p with
        sec := p.sec.setIfInBounds p.secCount (p.oamEntry n)
        secHas0 := if n = 0 then true else p.secHas0
        secCount := p.secCount + 1 }
    else { p with overflow := true } := by
  have hin : (p.oam.read (4 * n)).toNat ≤ p.scanline ∧ p.scanline - (p.oam.read (4 * n)).toNat < p.spriteHeight := by
    simp only [Ppu.inRange, Bool.and_eq_true, decide_eq_true_eq] at h
    unfold Ppu.spriteHeight Ppu.spr16
    omega
  rw [evalSprite]
  exact if_pos hin

/-- Which sprites lie on the line does not depend on what has been selected. -/
theorem inRange_evalSprite (p : Ppu) (n k : Nat) : (evalSprite p n).inRange k = p.inRange k := by
  have hkept := (evalSprite_kept p n).1
  rw [Ppu.inRange, hkept.oam, hkept.scanline, hkept.ctrl]
  rfl

theorem oamEntry_evalSprite (p : Ppu) (n k : Nat) : (evalSprite p n).oamEntry k = p.oamEntry k := by
  rw [Ppu.oamEntry, (evalSprite_kept p n).1.oam]
  rfl

/-- The loop of rule R382 over the sprites `l`, from any state of it: those in range fill the free entries in order, and
those for which there is none set the overflow flag. -/
theorem foldl_evalSprite (l : List Nat) {p : Ppu} (hcount : p.secCount ≤ 8) :
    (l.foldl evalSprite p).secCount = min 8 (p.secCount + (l.filter p.inRange).length) ∧
    (l.foldl evalSprite p).overflow = (p.overflow || decide (8 < p.secCount + (l.filter p.inRange).length)) ∧
    (0 ∉ l → (l.foldl evalSprite p).secHas0 = p.secHas0) ∧
    (∀ k, k < p.secCount → (l.foldl evalSprite p).sec[k]? = p.sec[k]?) ∧
    (∀ k n, p.secCount + k < 8 → (l.filter p.inRange)[k]? = some n →
      (l.foldl evalSprite p).sec[p.secCount + k]? = some (p.oamEntry n)) := by
  induction l generalizing p with
  | nil =>
    refine ⟨?_, ?_, fun _ => rfl, fun _ _ => rfl, fun _ _ _ h => ?_⟩
    · simp only [List.foldl_nil, List.filter_nil, List.length_nil]
      omega
    · have hroom : ¬ 8 < p.secCount + (([] : List Nat).filter p.inRange).length := by simpa using hcount
      rw [decide_eq_false hroom, Bool.or_false, List.foldl_nil]
    · simp at h
  | cons n l ih =>
    have hrange : (evalSprite p n).inRange = p.inRange := funext (inRange_evalSprite p n)
    have hentry : (evalSprite p n).oamEntry = p.oamEntry := funext (oamEntry_evalSprite p n)
    rw [List.foldl_cons]
    cases hin : p.inRange n
    · rw [evalSprite_of_not_inRange hin, List.filter_cons_of_neg (by rw [hin]; decide)]
      obtain ⟨hc, ho, hz, hold, hnew⟩ := ih hcount
      exact ⟨hc, ho, fun h => hz fun h' => h (List.mem_cons_of_mem _ h'), hold, hnew⟩
    · rw [List.filter_cons_of_pos hin, List.length_cons]
      by_cases hfree : p.secCount < 8
      · have hstep := evalSprite_of_inRange hin
        rw [if_pos hfree] at hstep
        obtain ⟨hc, ho, hz, hold, hnew⟩ := ih (p := evalSprite p n) (by rw [hstep]; exact hfree)
        rw [hrange] at hc ho hnew
        rw [hentry] at hnew
        generalize l.foldl evalSprite (evalSprite p n) = r at *
        rw [hstep] at hc ho hz hold hnew
        dsimp only at hc ho hz hold hnew
        refine ⟨by omega, ?_, fun h => ?_, fun k hk => ?_, fun k m hk hm => ?_⟩
        · rw [ho, Nat.add_right_comm, Nat.add_assoc]
        · simp only [List.mem_cons, not_or] at h
          rw [hz h.2, if_neg (Ne.symm h.1)]
        · rw [hold k (by omega), Vector.getElem?_setIfInBounds_ne (by omega)]
        · cases k with
          | zero =>
            obtain rfl : n = m := by simpa using hm
            rw [Nat.add_zero, hold _ (by omega), Vector.getElem?_setIfInBounds_self_of_lt hfree]
          | succ k =>
            rw [List.getElem?_cons_succ] at hm
            rw [← hnew k m (by omega) hm]
            congr 1
            omega
      · have hstep := evalSprite_of_inRange hin
        rw [if_neg hfree] at hstep
        obtain ⟨hc, ho, hz, hold, hnew⟩ := ih (p := evalSprite p n) (by rw [hstep]; exact hcount)
        rw [hrange] at hc ho
        generalize l.foldl evalSprite (evalSprite p n) = r at *
        rw [hstep] at hc ho hz hold
        dsimp only at hc ho hz hold
        refine ⟨by omega, ?_, fun h => hz fun h' => h (List.mem_cons_of_mem _ h'), hold, fun k m hk => by omega⟩
        rw [ho, Bool.true_or, decide_eq_true (show 8 < p.secCount + ((l.filter p.inRange).length + 1) by omega),
          Bool.or_true]

/-- Sprite 0 is looked at first, so it is selected wherever it is in range. -/
theorem foldl_evalSprite_has0 {p : Ppu} (hcount : p.secCount = 0) (hzero : p.secHas0 = false) :
    ((List.range 64).foldl evalSprite p).secHas0 = p.inRange 0 := by
  have hrest : 0 ∉ (List.range 63).map Nat.succ := by simp
  rw [List.range_succ_eq_map, List.foldl_cons]
  cases hin : p.inRange 0
  · rw [evalSprite_of_not_inRange hin]
    exact ((foldl_evalSprite _ (by omega)).2.2.1 hrest).trans hzero
  · have hstep := evalSprite_of_inRange hin
    rw [if_pos (by omega)] at hstep
    rw [(foldl_evalSprite _ (by rw [hstep]; exact (show p.secCount + 1 ≤ 8 by omega))).2.2.1 hrest, hstep]
    rfl

/-- Sprite evaluation in full (rule R382). -/
theorem evalSprites_spec (p : Ppu) :
    (evalSprites p).secCount = min 8 ((List.range 64).filter p.inRange).length ∧
    (evalSprites p).spriteCount = min 8 ((List.range 64).filter p.inRange).length ∧
    (evalSprites p).overflow = (p.overflow || decide (8 < ((List.range 64).filter p.inRange).length)) ∧
    (evalSprites p).spr0OnLine = decide (0 ∈ (List.range 64).filter p.inRange) ∧
    (evalSprites p).secHas0 = decide (0 ∈ (List.range 64).filter p.inRange) ∧
    ∀ k n, k < 8 → ((List.range 64).filter p.inRange)[k]? = some n → (evalSprites p).sec[k]? = some (p.oamEntry n) := by
  obtain ⟨hcount, hoverflow, -, -, hsec⟩ :=
    foldl_evalSprite (List.range 64) (p := { p with secCount := 0, secHas0 := false }) (Nat.zero_le 8)
  have hzero := foldl_evalSprite_has0 (p := { p with secCount := 0, secHas0 := false }) rfl rfl
  have hmem : decide (0 ∈ (List.range 64).filter p.inRange) = p.inRange 0 := by
    rw [Bool.eq_iff_iff, decide_eq_true_eq, List.mem_filter, List.mem_range]
    exact and_iff_right (by decide)
  dsimp only at hcount hoverflow hsec
  rw [Nat.zero_add] at hcount hoverflow
  rw [hmem]
  unfold evalSprites
  dsimp only
  generalize (List.range 64).foldl evalSprite { p with secCount := 0, secHas0 := false } = q at *
  refine ⟨hcount, hcount, hoverflow, hzero, hzero, fun k n hk hn => ?_⟩
  have hentry := hsec k n (by omega) hn
  rwa [Nat.zero_add] at hentry

/-- A tick of a rendering line keeps the selection of sprites but at dot 257. -/
theorem tick_keeps_selection (c : Cart) (f : Nat) {s : Video} (h : ¬ (advance s.ppu).renders ∨ (advance s.ppu).dot ≠ 257) :
    (s.tick c f).ppu.sec = s.ppu.sec ∧ (s.tick c f).ppu.secCount = s.ppu.secCount ∧
      (s.tick c f).ppu.secHas0 = s.ppu.secHas0 ∧ (s.tick c f).ppu.spriteCount = s.ppu.spriteCount ∧
      (s.tick c f).ppu.spr0OnLine = s.ppu.spr0OnLine := by
  obtain ⟨_, _, _, _, hadvance⟩ := advance_writes s.ppu
  by_cases hr : (advance s.ppu).renders
  · have h257 := h.resolve_left (not_not_intro hr)
    by_cases hdots : 257 ≤ (advance s.ppu).dot ∧ (advance s.ppu).dot ≤ 320
    · obtain ⟨-, v, hit, b, hp⟩ := tick_spriteDots c f hr hdots
      rw [hp, evalStage_of_ne (by rwa [(shiftStage_kept _).1.dot]), shiftStage_eq, hadvance]
      exact ⟨rfl, rfl, rfl, rfl, rfl⟩
    · obtain ⟨-, v, hit, b, vb, fr, o, hp⟩ := tick_background c f hr hdots
      rw [hp, shiftStage_eq, hadvance]
      exact ⟨rfl, rfl, rfl, rfl, rfl⟩
  · obtain ⟨_, _, _, _, _, hbegun⟩ := begun_writes s
    obtain ⟨_, _, hpixel⟩ := pixelStage_writes s.begun.ppu
    rw [Video.tick_of_idle c f hr]
    dsimp only
    rw [hpixel, hbegun, hadvance]
    exact ⟨rfl, rfl, rfl, rfl, rfl⟩

/-- The tick at dot 257 of a rendering line takes the selection of its step (5). -/
theorem tick_selects (c : Cart) (f : Nat) {s : Video} (hr : (advance s.ppu).renders) (h : (advance s.ppu).dot = 257) :
    ∃ v hit b, (s.tick c f).ppu = { evalStage (shiftStage (advance s.ppu)) with
      v := v, sprite0hit := hit, framebuffer := b, oamaddr := 0#8 } := by
  obtain ⟨-, v, hit, b, hp⟩ := tick_spriteDots c f hr (by omega)
  refine ⟨v, hit, b, ?_⟩
  rw [hp, if_neg (by omega), if_neg (by omega)]

/-- Settles O46: the tick at dot 257 is `evalSprites_spec` on a visible line, and clears on the pre-render line. -/
theorem spriteEvaluationSelectsTheFirstEight : Obligations.SpriteEvaluationSelectsTheFirstEight := by
  refine ⟨?visible, ?_⟩
  case visible =>
    rintro s _ _ rfl hline hdot hmask rfl
    obtain ⟨_, _, _, _, hadvance⟩ := advance_writes s.ppu
    have hr : (advance s.ppu).renders := ⟨by rwa [(advance_kept s.ppu).2.2.1], .inl hline⟩
    obtain ⟨v, hit, b, hp⟩ := tick_selects s.cart s.params.a12FilterDots (s := s.video) hr hdot
    have hkept := (shiftStage_kept (advance s.ppu)).1
    have heval : evalStage (shiftStage (advance s.ppu)) = evalSprites (shiftStage (advance s.ppu)) := by
      rw [evalStage, if_pos (hkept.dot.trans hdot), if_pos]
      exact decide_eq_true (hkept.scanline ▸ hline)
    have hrange : (shiftStage (advance s.ppu)).inRange = fun n =>
        decide ((s.ppu.oam.read (4 * n)).toNat ≤ (advance s.ppu).scanline) &&
        decide ((advance s.ppu).scanline < (s.ppu.oam.read (4 * n)).toNat + (if s.ppu.ctrl.getLsbD 5 then 16 else 8)) := by
      funext n
      rw [Ppu.inRange, hkept.oam, hkept.scanline, hkept.ctrl, (advance_kept s.ppu).2.2.2.2.1, (advance_kept s.ppu).2.1]
    obtain ⟨hcount, hsprites, hoverflow, honLine, hzero, hsec⟩ := evalSprites_spec (shiftStage (advance s.ppu))
    rw [hrange] at hcount hsprites hoverflow honLine hzero hsec
    rw [State.video_ppu, heval] at hp
    change s.tick.ppu = _ at hp
    rw [hp]
    generalize evalSprites (shiftStage (advance s.ppu)) = e at *
    refine ⟨hcount, hsprites, ?_, honLine, hzero, fun k n hk hn => ?_⟩
    · rw [hoverflow, shiftStage_eq, hadvance]
    · rw [hsec k n hk hn, Ppu.oamEntry, hkept.oam, (advance_kept s.ppu).2.2.2.2.1]
  · rintro s _ rfl
    refine ⟨fun hr hline hdot => ?preRender, tick_keeps_selection (s := s.video) _ _⟩
    case preRender =>
      obtain ⟨v, hit, b, hp⟩ := tick_selects s.cart s.params.a12FilterDots (s := s.video) hr hdot
      have hkept := (shiftStage_kept (advance s.ppu)).1
      have heval : evalStage (shiftStage (advance s.ppu)) = clearSprites (shiftStage (advance s.ppu)) := by
        rw [evalStage, if_pos (hkept.dot.trans hdot), if_neg]
        simp only [Ppu.visibleLine, hkept.scanline, hline]
        decide
      rw [State.video_ppu, heval] at hp
      change s.tick.ppu = _ at hp
      rw [hp]
      exact ⟨rfl, rfl, rfl, rfl⟩

end Sys2Proof.Machine
end

section
/-! PROOFS. The invariants of the memories and the devices (spec/10_state.md section 7, 61_ppu.md section 1, 62_mapper.md,
63_io_and_scheduler.md section 1): what an action can do to them, effect by effect, and what a tick can. -/

namespace Sys2Proof.Machine

/-! ### The effects of an action -/

/-- A property kept by each effect that an instruction, an interrupt entry, a reset or a turn of the host is made of. -/
structure EffectClosed (P : State → Prop) : Prop where
  plain : ∀ s cpu bus cyc nmi host, P s →
    P { s with cpu := cpu, busLast := bus, cyc := cyc, nmiPending := nmi, host := host }
  ppuRegs : ∀ s ctrl mask oamaddr vblank t x w v readbuf frameReady, P s →
    P { s with ppu := { s.ppu with
      ctrl := ctrl, mask := mask, oamaddr := oamaddr, vblank := vblank, t := t, x := x, w := w, v := v,
      readbuf := readbuf, frameReady := frameReady } }
  ram : ∀ s i b, i < 2048 → P s → P { s with ram := s.ram.write i b }
  oam : ∀ s i b, i < 256 → P s → P { s with ppu := { s.ppu with oam := s.ppu.oam.write i b } }
  vram : ∀ s i b, i < 4096 → P s → P { s with ppu := { s.ppu with vram := s.ppu.vram.write i b } }
  palette : ∀ s i (b : Byte), i < 32 → b.toNat < 64 → P s →
    P { s with ppu := { s.ppu with palette := s.ppu.palette.write i b } }
  prgram : ∀ s i b, i < 8192 → P s → P { s with cart := { s.cart with prgram := s.cart.prgram.write i b } }
  chr : ∀ s i b, i < s.cart.chrLen → P s → P { s with cart := { s.cart with chr := s.cart.chr.write i b } }
  notify : ∀ s a, P s → P { s with mapper := s.mapper.notify s.params.a12FilterDots a s.ppu.ticks }
  board : ∀ s a v, 0x8000 ≤ a.toNat → P s → P { s with mapper := s.mapper.writeReg a v }
  ports : ∀ s c0 c1, (s.ctl0.strobe = s.ctl1.strobe → c0.strobe = c1.strobe) → P s → P { s with ctl0 := c0, ctl1 := c1 }

/-! ### The indices that the PPU's address space reaches -/

theorem palIndex_lt (a : Nat) : palIndex a < 32 := by
  rw [palIndex_eq_mirrors]
  split <;> omega

theorem ntIndex_lt (m : Mirroring) (a : BitVec 14) : ntIndex m a < 4096 := by
  have hpage : nametablePage m (a.toNat / 1024 % 4) < 4 := by
    unfold nametablePage
    split <;> omega
  unfold ntIndex
  omega

theorem chrOffset_lt (c : Cart) (m : Mapper) {a : Nat} (h : a < 0x2000) : chrOffset c m a < c.chrLen := by
  have hunits : 1 ≤ max c.chrUnits 1 := Nat.le_max_right _ _
  unfold chrOffset Cart.chrLen
  generalize max c.chrUnits 1 = units at *
  cases m with
  | nrom => dsimp only; omega
  | mmc1 r => exact Nat.mod_lt _ (by omega)
  | mmc3 r =>
    dsimp only
    have hbank := Nat.mod_lt (mmc3ChrBank r (a ^^^ if r.bankSelect.getLsbD 7 then 0x1000 else 0)).toNat
      (show 0 < 8192 * units / 1024 by omega)
    generalize (mmc3ChrBank r (a ^^^ if r.bankSelect.getLsbD 7 then 0x1000 else 0)).toNat % (8192 * units / 1024) = bank at *
    omega

/-! ### Reads and writes are made of these effects -/

section
variable {P : State → Prop}

theorem EffectClosed.busLast (H : EffectClosed P) {s : State} (b : Byte) (h : P s) : P { s with busLast := b } :=
  H.plain s s.cpu b s.cyc s.nmiPending s.host h

theorem EffectClosed.readData (H : EffectClosed P) {s : State} (h : P s) : P (readData s).2 := by
  rw [readData_eq rfl]
  exact H.ppuRegs _ _ _ _ _ _ _ _ _ _ _ (H.notify s _ h)

theorem EffectClosed.ppuRegRead (H : EffectClosed P) (n : Nat) {s : State} (h : P s) : P (ppuRegRead n s).2 := by
  unfold Machine.ppuRegRead
  split
  · exact H.plain _ s.cpu s.busLast s.cyc false s.host (H.ppuRegs s _ _ _ false _ _ false _ _ _ h)
  · exact h
  · exact H.readData h
  · exact h

theorem EffectClosed.ioRead (H : EffectClosed P) (a : Addr) {s : State} (h : P s) : P (ioRead a s).2 := by
  unfold Machine.ioRead
  split
  · exact H.ports s _ _ (fun he => (Controller.clocked_strobe _).trans he) h
  split
  · exact H.ports s _ _ (fun he => he.trans (Controller.clocked_strobe _).symm) h
  · exact h

theorem EffectClosed.busRead (H : EffectClosed P) (a : Addr) {s : State} (h : P s) : P (busRead a s).2 := by
  have hraw : P (busReadRaw a s).2 := by
    unfold busReadRaw
    split
    · exact h
    split
    · exact H.ppuRegRead _ h
    split
    · exact H.ioRead a h
    split <;> exact h
  exact H.busLast _ hraw

theorem EffectClosed.writeData (H : EffectClosed P) (v : Byte) {s : State} (h : P s) : P (writeData v s) := by
  have hnotified := H.notify s (vramAddr s.ppu.v) h
  rw [writeData_eq rfl]
  dsimp only
  split
  · next hchr =>
    by_cases hram : s.cart.chrUnits = 0
    · rw [if_pos hram]
      exact H.ppuRegs _ _ _ _ _ _ _ _ _ _ _ (H.chr _ _ v (chrOffset_lt _ _ hchr) hnotified)
    · rw [if_neg hram]
      exact H.ppuRegs _ _ _ _ _ _ _ _ _ _ _ hnotified
  split
  · exact H.ppuRegs _ _ _ _ _ _ _ _ _ _ _ (H.vram _ _ v (ntIndex_lt _ _) hnotified)
  · refine H.ppuRegs _ _ _ _ _ _ _ _ _ _ _ (H.palette _ _ _ (palIndex_lt _) ?_ hnotified)
    rw [BitVec.toNat_ofNat]
    omega

theorem EffectClosed.ppuRegWrite (H : EffectClosed P) (n : Nat) (v : Byte) {s : State} (h : P s) :
    P (ppuRegWrite n v s) := by
  unfold Machine.ppuRegWrite
  split
  case h_4 => exact H.ppuRegs _ _ _ _ _ _ _ _ _ _ _ (H.oam s _ v s.ppu.oamaddr.isLt h)
  case h_5 => unfold writeScroll; split <;> exact H.ppuRegs s _ _ _ _ _ _ _ _ _ _ h
  case h_6 =>
    unfold writeAddr
    split
    · exact H.notify _ _ (H.ppuRegs s _ _ _ _ _ _ _ _ _ _ h)
    · exact H.ppuRegs s _ _ _ _ _ _ _ _ _ _ h
  case h_7 => exact H.writeData v h
  case h_8 => exact h
  all_goals exact H.ppuRegs s _ _ _ _ _ _ _ _ _ _ h

theorem EffectClosed.oamDma (H : EffectClosed P) (page : Byte) {s : State} (h : P s) : P (oamDma page s) := by
  have hcopy : P (dmaCopy page s) := dmaCopy_induction P page (fun a t ht => H.busRead a ht)
    (fun t i b ht => H.oam t _ b (Nat.mod_lt _ (by decide)) ht) s h
  exact H.plain _ (dmaCopy page s).cpu (dmaCopy page s).busLast _ (dmaCopy page s).nmiPending (dmaCopy page s).host hcopy

theorem EffectClosed.cartWrite (H : EffectClosed P) (a : Addr) (v : Byte) {s : State} (h : P s) :
    P { s with cart := cartCpuWrite s.cart s.mapper a v, mapper := mapperCpuWrite s.mapper a v } := by
  unfold cartCpuWrite mapperCpuWrite
  split
  · next hram =>
    rw [if_neg (by omega)]
    exact H.prgram s _ v (by omega) h
  split
  · next hrom => exact H.board s a v hrom h
  · exact h

theorem EffectClosed.busWrite (H : EffectClosed P) (a : Addr) (v : Byte) {s : State} (h : P s) : P (busWrite a v s) :=
  busWrite_induction P a v (fun _ b ht => H.busLast b ht) H.ram (fun n _ ht => H.ppuRegWrite n v ht)
    (fun _ ht => H.oamDma v ht) (fun t ht => H.ports t _ _ (fun _ => rfl) ht) (fun _ ht => H.cartWrite a v ht) s h

theorem Controller.setButtons_strobe (b : Option Byte) (c : Controller) : (c.setButtons b).strobe = c.strobe := by
  cases b <;> rfl

theorem EffectClosed.applyHost (H : EffectClosed P) (turn : HostTurn) {s : State} (h : P s) : P (applyHost turn s) := by
  have hstrobes : s.ctl0.strobe = s.ctl1.strobe →
      (s.ctl0.setButtons turn.buttons0).strobe = (s.ctl1.setButtons turn.buttons1).strobe := by
    rw [Controller.setButtons_strobe, Controller.setButtons_strobe]
    exact id
  exact H.ppuRegs _ _ _ _ _ _ _ _ _ _ _ (H.ports s _ _ hstrobes h)

/-- Such a property is kept by all that a turn does before its drain. -/
theorem EffectClosed.turnClosed (H : EffectClosed P) : TurnClosed P where
  read a s h := H.busRead a h
  write a v s h := H.busWrite a v h
  cpu f s _ h := H.plain s (f s.cpu) s.busLast s.cyc s.nmiPending s.host h
  charge n s h := H.plain s s.cpu s.busLast (s.cyc + n) s.nmiPending s.host h
  ack s h := H.plain s s.cpu s.busLast s.cyc false s.host h
  host s h := by
    unfold State.afterHost State.takeTurn
    split
    · exact H.applyHost _ h
    · exact H.applyHost _ (H.plain s s.cpu s.busLast s.cyc s.nmiPending _ h)
  ppuReset s h := H.ppuRegs s _ _ _ _ _ _ _ _ _ _ h

end

/-! ### Memories (rules R37, R341, R345, R422) -/

/-- The parts of the cartridge that nothing writes. -/
structure SameCartridge (c d : Cart) : Prop where
  prg : d.prg = c.prg
  prgUnits : d.prgUnits = c.prgUnits
  chrUnits : d.chrUnits = c.chrUnits
  mirroring : d.mirroring = c.mirroring

/-- Every memory canonical, and the cartridge's identity. -/
def MemoriesKept (c : Cart) (s : State) : Prop := s.memoryWf ∧ SameCartridge c s.cart

theorem memoriesKept_effectClosed (c : Cart) : EffectClosed (MemoriesKept c) where
  plain _ _ _ _ _ _ h := h
  ppuRegs _ _ _ _ _ _ _ _ _ _ _ h := h
  ram _ i b hi := fun ⟨⟨hram, hrest⟩, hcart⟩ => ⟨⟨Memory.wf_write i b hram hi, hrest⟩, hcart⟩
  vram _ i b hi := fun ⟨⟨hram, hvram, hrest⟩, hcart⟩ => ⟨⟨hram, Memory.wf_write i b hvram hi, hrest⟩, hcart⟩
  oam _ i b hi := fun ⟨⟨hram, hvram, hoam, hrest⟩, hcart⟩ =>
    ⟨⟨hram, hvram, Memory.wf_write i b hoam hi, hrest⟩, hcart⟩
  palette _ i b hi _ := fun ⟨⟨hram, hvram, hoam, hpalette, hrest⟩, hcart⟩ =>
    ⟨⟨hram, hvram, hoam, Memory.wf_write i b hpalette hi, hrest⟩, hcart⟩
  prgram _ i b hi := fun ⟨⟨hram, hvram, hoam, hpalette, hframe, hprgram, hrest⟩, hcart⟩ =>
    ⟨⟨hram, hvram, hoam, hpalette, hframe, Memory.wf_write i b hprgram hi, hrest⟩,
      ⟨hcart.prg, hcart.prgUnits, hcart.chrUnits, hcart.mirroring⟩⟩
  chr _ i b hi := fun ⟨⟨hram, hvram, hoam, hpalette, hframe, hprgram, hprg, hchr⟩, hcart⟩ =>
    ⟨⟨hram, hvram, hoam, hpalette, hframe, hprgram, hprg, Memory.wf_write i b hchr hi⟩,
      ⟨hcart.prg, hcart.prgUnits, hcart.chrUnits, hcart.mirroring⟩⟩
  notify _ _ h := h
  board _ _ _ _ h := h
  ports _ _ _ _ h := h

/-- The framebuffer cell of a dot that draws is one of the 61,440. -/
theorem cell_lt {p : Ppu} (h : p.drawsPixel) : 256 * p.scanline + (p.dot - 1) < 61440 := by
  obtain ⟨hline, hlo, hhi⟩ := h
  omega

theorem State.memoryWf.palette {s : State} (h : s.memoryWf) : s.ppu.palette.wf 32 = true := by
  obtain ⟨-, -, -, hpalette, -⟩ := h
  exact hpalette

theorem State.memoryWf.framebuffer {s : State} (h : s.memoryWf) : s.ppu.framebuffer.wf 61440 = true := by
  obtain ⟨-, -, -, -, hframebuffer, -⟩ := h
  exact hframebuffer

/-- A tick writes one framebuffer cell at most, and no other memory. -/
theorem memoriesKept_tick (c : Cart) {s : State} (h : MemoriesKept c s) : MemoriesKept c s.tick := by
  obtain ⟨⟨hram, hvram, hoam, hpalette, hframe, hcartridge⟩, hcart⟩ := h
  have hkept := tick_kept s.cart s.params.a12FilterDots s.video
  obtain ⟨-, -, -, hadvVram, hadvOam, hadvPalette, -⟩ := advance_kept s.ppu
  refine ⟨⟨hram, ?vram, ?oam, ?palette, ?frame, hcartridge⟩, hcart⟩
  case vram => exact (hkept.vram.trans hadvVram) ▸ hvram
  case oam => exact (hkept.oam.trans hadvOam) ▸ hoam
  case palette => exact (hkept.palette.trans hadvPalette) ▸ hpalette
  case frame =>
    by_cases hdraws : (advance s.ppu).drawsPixel
    · have hwrite := (tick_of_drawing s.cart s.params.a12FilterDots (s := s.video) rfl hdraws).1
      exact hwrite ▸ Memory.wf_write _ _ hframe (cell_lt hdraws)
    · exact (tick_of_notDrawing s.cart s.params.a12FilterDots (s := s.video) hdraws).1 ▸ hframe

/-- Settles O58: each effect of a turn and each tick keeps the memories' form and the cartridge's identity. -/
theorem stepKeepsMemoriesCanonical : Obligations.StepKeepsMemoriesCanonical := by
  intro s t hwf hstep
  obtain ⟨hwf', hcart⟩ := (memoriesKept_effectClosed s.cart).turnClosed.step (fun _ => memoriesKept_tick s.cart) hstep
    ⟨hwf, rfl, rfl, rfl, rfl⟩
  exact ⟨hwf', hcart.prg, hcart.prgUnits, hcart.chrUnits, hcart.mirroring⟩

/-! ### Colours (rules R341, R345) -/

/-- Every cell of a memory holds six bits. -/
def SixBit (m : Memory) : Prop := ∀ i, (m.read i).toNat < 64

theorem sixBit_write {size : Nat} {m : Memory} {i : Nat} {b : Byte} (hwf : m.wf size = true) (h : SixBit m) (hb : b.toNat < 64) :
    SixBit (m.write i b) := by
  intro k
  by_cases hk : k = i
  · rw [hk, Memory.wf_read_write i b hwf]
    exact hb
  · rw [Memory.read_write_other _ _ _ _ hk]
    exact h k

/-! ### The mapper's counts (rules R440, R450) -/

/-- The board's own counts are in range at tick `now`. -/
def Mapper.inRangeAt (now : Nat) : Mapper → Prop
  | .nrom => True
  | .mmc1 r => r.cnt ≤ 4
  | .mmc3 r => r.a12LowSince ≤ now

theorem mapperWf_iff (s : State) : s.mapperWf ↔ s.mapper.inRangeAt s.ppu.ticks := by
  unfold State.mapperWf
  cases s.mapper <;> rfl

theorem Mapper.inRangeAt_mono {m : Mapper} {now later : Nat} (h : m.inRangeAt now) (hl : now ≤ later) :
    m.inRangeAt later := by
  cases m with
  | nrom => trivial
  | mmc1 r => exact h
  | mmc3 r => exact Nat.le_trans h hl

/-- A notification notes the present as the last fall of A12, or leaves that as it was. -/
theorem mmc3Notify_a12LowSince (filter now : Nat) (r : Mmc3) (a : BitVec 14) :
    (mmc3Notify filter r a now).a12LowSince = r.a12LowSince ∨ (mmc3Notify filter r a now).a12LowSince = now := by
  cases ha : a.getLsbD 12 <;> cases hr : r.a12
  · rw [mmc3Notify_of_level filter now (ha.trans hr.symm)]
    exact .inl rfl
  · rw [mmc3Notify_of_fall filter now ha hr]
    exact .inr rfl
  · rw [mmc3Notify_of_rise filter now ha hr]
    split <;> exact .inl rfl
  · rw [mmc3Notify_of_level filter now (ha.trans hr.symm)]
    exact .inl rfl

theorem Mapper.inRangeAt_notify {m : Mapper} {now : Nat} (filter : Nat) (a : BitVec 14) (h : m.inRangeAt now) :
    (m.notify filter a now).inRangeAt now := by
  cases m with
  | nrom => trivial
  | mmc1 r => exact h
  | mmc3 r =>
    change (mmc3Notify filter r a now).a12LowSince ≤ now
    obtain hsame | hnow := mmc3Notify_a12LowSince filter now r a
    · exact hsame ▸ h
    · exact Nat.le_of_eq hnow

theorem Mapper.inRangeAt_driven {m : Mapper} {now : Nat} (filter : Nat) (o : Option (BitVec 14)) (h : m.inRangeAt now) :
    (m.driven filter now o).inRangeAt now := by
  cases o with
  | none => exact h
  | some a => exact Mapper.inRangeAt_notify filter a h

theorem mmc1Loaded_cnt (r : Mmc1) (a : Addr) (w : BitVec 5) : (mmc1Loaded r a w).cnt = 0 := by
  unfold mmc1Loaded
  repeat' split
  all_goals rfl

theorem mmc1Write_cnt {a : Addr} (ha : 0x8000 ≤ a.toNat) (v : Byte) {r : Mmc1} (h : r.cnt ≤ 4) :
    (mmc1Write r a v).cnt ≤ 4 := by
  by_cases hv : v.toNat < 128
  · rw [mmc1Write_of_shift ha hv h]
    split
    · assumption
    · rw [mmc1Loaded_cnt]
      decide
  · rw [mmc1Write_of_reset (by omega)]
    exact Nat.zero_le _

theorem mmc3Write_a12LowSince {a : Addr} (ha : 0x8000 ≤ a.toNat) (r : Mmc3) (v : Byte) :
    (mmc3Write r a v).a12LowSince = r.a12LowSince := by
  rw [mmc3Write_eq ha]
  repeat' split
  all_goals rfl

theorem Mapper.inRangeAt_writeReg {m : Mapper} {now : Nat} {a : Addr} (ha : 0x8000 ≤ a.toNat) (v : Byte)
    (h : m.inRangeAt now) : (m.writeReg a v).inRangeAt now := by
  cases m with
  | nrom => trivial
  | mmc1 r => exact mmc1Write_cnt ha v h
  | mmc3 r => exact (mmc3Write_a12LowSince ha r v).trans_le h

/-! ### All of them together -/

/-- The invariants of the memories and of the devices. -/
structure DevicesOk (s : State) : Prop where
  memories : s.memoryWf
  palette : SixBit s.ppu.palette
  framebuffer : SixBit s.ppu.framebuffer
  strobes : s.ctl0.strobe = s.ctl1.strobe
  secCount : s.ppu.secCount ≤ 8
  spriteCount : s.ppu.spriteCount ≤ 8
  mapper : s.mapper.inRangeAt s.ppu.ticks

theorem devicesOk_effectClosed : EffectClosed DevicesOk := by
  have hmemories (s : State) (h : DevicesOk s) : MemoriesKept s.cart s := ⟨h.memories, rfl, rfl, rfl, rfl⟩
  have H (s : State) := memoriesKept_effectClosed s.cart
  exact
    { plain := fun _ _ _ _ _ _ h => { h with }
      ppuRegs := fun _ _ _ _ _ _ _ _ _ _ _ h => { h with }
      ram := fun s i b hi h => { h with memories := ((H s).ram s i b hi (hmemories s h)).1 }
      oam := fun s i b hi h => { h with memories := ((H s).oam s i b hi (hmemories s h)).1 }
      vram := fun s i b hi h => { h with memories := ((H s).vram s i b hi (hmemories s h)).1 }
      palette := fun s i b hi hb h =>
        { h with
          memories := ((H s).palette s i b hi hb (hmemories s h)).1
          palette := sixBit_write h.memories.palette h.palette hb }
      prgram := fun s i b hi h => { h with memories := ((H s).prgram s i b hi (hmemories s h)).1 }
      chr := fun s i b hi h => { h with memories := ((H s).chr s i b hi (hmemories s h)).1 }
      notify := fun _ a h => { h with mapper := Mapper.inRangeAt_notify _ a h.mapper }
      board := fun _ _ v ha h => { h with mapper := Mapper.inRangeAt_writeReg ha v h.mapper }
      ports := fun _ _ _ hc h => { h with strobes := hc h.strobes } }

/-- The mapper after a tick has been told of one address at most. -/
theorem tick_mapper (c : Cart) (f : Nat) (s : Video) :
    ∃ o, (s.tick c f).mapper = s.mapper.driven f (advance s.ppu).ticks o := by
  by_cases hr : (advance s.ppu).renders
  · by_cases hdots : 257 ≤ (advance s.ppu).dot ∧ (advance s.ppu).dot ≤ 320
    · exact ⟨_, (tick_spriteDots c f hr hdots).1⟩
    · exact ⟨_, (tick_background c f hr hdots).1⟩
  · obtain ⟨_, _, _, _, _, hbegun⟩ := begun_writes s
    refine ⟨none, ?_⟩
    rw [Video.tick_of_idle c f hr, hbegun]
    rfl

theorem evalStage_counts {p : Ppu} (h : p.dot = 257) : (evalStage p).secCount ≤ 8 ∧ (evalStage p).spriteCount ≤ 8 := by
  rw [evalStage, if_pos h]
  split
  · obtain ⟨hcount, hsprites, -⟩ := evalSprites_spec p
    rw [hcount, hsprites]
    exact ⟨Nat.min_le_left _ _, Nat.min_le_left _ _⟩
  · exact ⟨Nat.zero_le _, Nat.zero_le _⟩

/-- A tick leaves the sprite counts at most 8. -/
theorem tick_counts (c : Cart) (f : Nat) {s : Video} (hsec : s.ppu.secCount ≤ 8) (hsprite : s.ppu.spriteCount ≤ 8) :
    (s.tick c f).ppu.secCount ≤ 8 ∧ (s.tick c f).ppu.spriteCount ≤ 8 := by
  by_cases hselects : (advance s.ppu).renders ∧ (advance s.ppu).dot = 257
  · obtain ⟨v, hit, b, hp⟩ := tick_selects c f hselects.1 hselects.2
    rw [hp]
    exact evalStage_counts ((shiftStage_kept _).1.dot.trans hselects.2)
  · obtain ⟨-, hsec', -, hsprite', -⟩ := tick_keeps_selection c f (s := s) (by tauto)
    rw [hsec', hsprite']
    exact ⟨hsec, hsprite⟩

theorem devicesOk_tick {s : State} (h : DevicesOk s) : DevicesOk s.tick := by
  have hkept := tick_kept s.cart s.params.a12FilterDots s.video
  obtain ⟨hsec, hsprite⟩ := tick_counts s.cart s.params.a12FilterDots (s := s.video) h.secCount h.spriteCount
  have hpalette : (advance s.ppu).palette = s.ppu.palette := (advance_kept s.ppu).2.2.2.2.2.1
  refine ⟨(memoriesKept_tick s.cart ⟨h.memories, rfl, rfl, rfl, rfl⟩).1, (hkept.palette.trans hpalette) ▸ h.palette,
    ?framebuffer, h.strobes, hsec, hsprite, ?mapper⟩
  case framebuffer =>
    by_cases hdraws : (advance s.ppu).drawsPixel
    · have hwrite := (tick_of_drawing s.cart s.params.a12FilterDots (s := s.video) rfl hdraws).1
      exact hwrite ▸ sixBit_write h.memories.framebuffer h.framebuffer
        (colourAt_lt (by rw [State.video_ppu, hpalette]; exact h.palette))
    · exact (tick_of_notDrawing s.cart s.params.a12FilterDots (s := s.video) hdraws).1 ▸ h.framebuffer
  case mapper =>
    obtain ⟨o, hmapper⟩ := tick_mapper s.cart s.params.a12FilterDots s.video
    have hticks : s.tick.ppu.ticks = (advance s.ppu).ticks := hkept.ticks
    have hlater : s.ppu.ticks ≤ (advance s.ppu).ticks := (advance_kept s.ppu).1 ▸ Nat.le_succ _
    rw [hticks, State.tick, State.withVideo_mapper, hmapper]
    exact Mapper.inRangeAt_driven _ o (Mapper.inRangeAt_mono h.mapper hlater)

/-- Settles O59: each effect of a turn and each tick keeps them, with the memories' form. -/
theorem stepKeepsDeviceFieldsInRange : Obligations.StepKeepsDeviceFieldsInRange := by
  intro s t hmemories hcolours hdevices hmapper hstep
  obtain ⟨hstrobes, hsec, hsprite⟩ := hdevices
  have h := devicesOk_effectClosed.turnClosed.step (fun _ => devicesOk_tick) hstep
    ⟨hmemories, fun i => (hcolours i).1, fun i => (hcolours i).2, hstrobes, hsec, hsprite, (mapperWf_iff s).mp hmapper⟩
  exact ⟨fun i => ⟨h.palette i, h.framebuffer i⟩, ⟨h.strobes, h.secCount, h.spriteCount⟩,
    (mapperWf_iff t).mpr h.mapper⟩

end Sys2Proof.Machine
end

section
/-! PROOFS. The meaning of an instruction by the columns of its table row (spec/30_encoding.md section 5,
40_addressing_modes.md rule R130): what its mnemonic does with its operand, and what that costs. -/

namespace Sys2Proof.Machine

/-! ### What a mnemonic does, by operand class -/

/-- What is done with the byte of an immediate or of a memory operand that is read; nothing for the NOPs. -/
def readOp : Mnemonic → Byte → Cpu → Cpu
  | .LDA => loadA | .LDX => loadX | .LDY => loadY | .LAX => loadAX
  | .AND => andA | .ORA => oraA | .EOR => eorA | .BIT => bitA
  | .ADC => adc | .SBC => sbc | .CMP => cmpA | .CPX => cmpX | .CPY => cmpY
  | .ANC => anc | .ALR => alr | .ARR => arr | .AXS => axs
  | _ => fun _ c => c

/-- What an implied form does on the registers alone; nothing for the NOPs. -/
def impliedOp : Mnemonic → Cpu → Cpu
  | .CLC => Cpu.put .C false | .SEC => Cpu.put .C true | .CLI => Cpu.put .I false | .SEI => Cpu.put .I true
  | .CLV => Cpu.put .V false | .CLD => Cpu.put .D false | .SED => Cpu.put .D true
  | .TAX => fun c => loadX c.a c | .TAY => fun c => loadY c.a c | .TXA => fun c => loadA c.x c
  | .TYA => fun c => loadA c.y c | .TSX => fun c => loadX c.sp c | .TXS => fun c => { c with sp := c.x }
  | .INX => fun c => loadX (c.x + 1#8) c | .INY => fun c => loadY (c.y + 1#8) c
  | .DEX => fun c => loadX (c.x - 1#8) c | .DEY => fun c => loadY (c.y - 1#8) c
  | _ => id

/-- The byte that a shift, a rotate or a count makes of a byte, and the carry it sets. -/
def modifyOp : Mnemonic → Byte → Cpu → Byte × Cpu
  | .DEC | .DCP => decByte
  | .ASL | .SLO => aslByte
  | .LSR | .SRE => lsrByte
  | .ROL | .RLA => rolByte
  | .ROR | .RRA => rorByte
  | _ => incByte

/-- What is done with that byte once it is written. -/
def modifyPost : Mnemonic → Byte → Cpu → Cpu
  | .DCP => cmpA | .ISC => sbc | .SLO => oraA | .RLA => andA | .SRE => eorA | .RRA => adc
  | _ => setNZ

/-- The byte that a store writes. -/
def storedByte : Mnemonic → Cpu → Byte
  | .STX => Cpu.x | .STY => Cpu.y | .SAX => fun c => c.a &&& c.x | _ => Cpu.a

/-- What an instruction does with a memory operand (rule R130): a load or a store, one after the other, or a jump. -/
inductive MemUse where
  | reads | stores | modifies | jumps | calls
  deriving DecidableEq

def memUse : Mnemonic → MemUse
  | .STA | .STX | .STY | .SAX => .stores
  | .INC | .DEC | .ASL | .LSR | .ROL | .ROR | .DCP | .ISC | .SLO | .RLA | .SRE | .RRA => .modifies
  | .JMP => .jumps
  | .JSR => .calls
  | _ => .reads

/-- The implied forms that use the stack; the other ones compute on the registers. -/
def impliedEffect (k : Mnemonic) (s : State) : State :=
  match k with
  | .BRK => softwareInterrupt s
  | .RTI => returnFromException s
  | .RTS => (pull16 s).2.mapCpu fun c => { c with pc := (pull16 s).1 + 1#16 }
  | .PHA => push s.cpu.a s
  | .PHP => push (pushedByBrk s.cpu.p) s
  | .PLA => (pull s).2.mapCpu (loadA (pull s).1)
  | .PLP => (pull s).2.mapCpu fun c => { c with p := pulledStatus (pull s).1 }
  | _ => s.mapCpu (impliedOp k)

/-- The effect of a form with a memory operand, whose address `resolve` gives. -/
def memEffect (k : Mnemonic) (m : MemOperand) (s : State) : State :=
  let ea := (resolve m s).1.addr
  let u := (resolve m s).2
  match memUse k with
  | .reads => (busRead ea u).2.mapCpu (readOp k (busRead ea u).1)
  | .stores => busWrite ea (storedByte k u.cpu) u
  | .modifies =>
    let r := modifyOp k (busRead ea u).1 (busRead ea u).2.cpu
    (busWrite ea r.1 (busRead ea u).2).mapCpu fun _ => modifyPost k r.1 r.2
  | .jumps => u.mapCpu fun c => { c with pc := ea }
  | .calls => (push16 (u.cpu.pc - 1#16) u).mapCpu fun c => { c with pc := ea }

/-- The pointer of an indirect jump, read without carry into its page (rules R143, R221). -/
def indirectTarget (a : Addr) (s : State) : Addr × State := busRead16 a (wordOf (hiByte a) (loByte a + 1#8)) s

/-- The effect of an instruction with a meaning, its cost apart. -/
def effect (k : Mnemonic) (o : Operand) (s : State) : State :=
  match o with
  | .implied => impliedEffect k s
  | .accumulator => s.mapCpu fun c => loadA (modifyOp k c.a c).1 (modifyOp k c.a c).2
  | .immediate v => s.mapCpu (readOp k v)
  | .mem m => memEffect k m s
  | .relative d => if branchTaken k s.cpu.p then s.mapCpu fun c => { c with pc := c.pc + sext16 d } else s
  | .indirect a => (indirectTarget a s).2.mapCpu fun c => { c with pc := (indirectTarget a s).1 }

/-- What is charged on top of the baseline (rules R144, R224). -/
def adder (r : Row) (o : Operand) (s : State) : Nat :=
  match o with
  | .mem m => (r.pagePenalty && (resolve m s).1.crossed).toNat
  | .relative d =>
    if branchTaken r.kind s.cpu.p then 1 + (pageCross (s.cpu.pc + sext16 d) s.cpu.pc).toNat else 0
  | _ => 0

/-- The opcodes of classes (b) and (c) (rule R107). -/
def isUnstable (r : Row) : Bool := r.cls == .unofficialNoop || r.cls == .unofficialJam

/-- The meaning of an instruction, by the shape (rule R130) that its operand gives it. -/
def meaning (r : Row) (o : Operand) (s : State) : Result :=
  if isUnstable r then unstable r.kind r.cycles s
  else match o with
    | .implied => .next ((impliedEffect r.kind s).charge r.cycles)
    | .accumulator => modifyAcc r.cycles (modifyOp r.kind) s
    | .immediate v => immediate r.cycles v (readOp r.kind) s
    | .mem m => match memUse r.kind with
      | .reads => readMem r.cycles r.pagePenalty m (readOp r.kind) s
      | .stores => writeMem r.cycles m (storedByte r.kind) s
      | .modifies => modifyMem r.cycles m (modifyOp r.kind) (modifyPost r.kind) s
      | .jumps | .calls => .next ((memEffect r.kind m s).charge r.cycles)
    | .relative d => branch (fun c => branchTaken r.kind c.p) d s
    | .indirect a => execJmpInd a s

/-- The table by opcode gives every instruction its meaning. -/
theorem decodeTable_meanings (b c : Byte) (s : State) :
    decodeTable.map (fun make => exec (make b c) s) =
      rowTable.map fun row => meaning row (row.mode.operandOf b c) s := by
  simp only [decodeTable, rowTable, List.map_append]
  rfl

theorem exec_decodeOp (op b c : Byte) (s : State) :
    exec (decodeOp op b c) s = meaning (decodeRow op) ((decodeRow op).mode.operandOf b c) s := by
  rw [apply_decodeOp fun i => exec i s, decodeTable_meanings]
  exact List.getD_map _ ⟨.NOP, .implied, 2, false, false, .official⟩ fun row => meaning row (row.mode.operandOf b c) s

/-- Every instruction means what its row and its operand say. -/
theorem exec_eq_meaning (i : Instr) (s : State) : exec i s = meaning i.row i.operand s := by
  obtain ⟨-, -, b, c, hi⟩ := Laws.rowShape i
  have hop : i.operand = i.row.mode.operandOf b c := by
    rw [hi, operand_decodeOp, ← hi]
    rfl
  rw [hop, hi, exec_decodeOp, ← hi]
  rfl

/-- What the columns of a row have to do with its mnemonic and its mode: the adder of rule R144 is for reads, and a branch
and an indirect jump have the baselines of rules R224 and R221. -/
theorem decodeRow_columns : ∀ op : Byte,
    (isUnstable (decodeRow op) ∨ memUse (decodeRow op).kind ≠ .reads → (decodeRow op).pagePenalty = false) ∧
    ((decodeRow op).mode = .relative → (decodeRow op).cycles = 2) ∧
    ((decodeRow op).mode = .indirect → (decodeRow op).cycles = 5) := by decide

theorem takenCost_eq_baseline_add (target next : Addr) :
    takenCost target next = 2 + (1 + (pageCross target next).toNat) := by
  rw [← Nat.add_assoc]
  rfl

/-- Every instruction with a meaning is its effect and its cost. -/
theorem exec_eq_effect {i : Instr} (h : isUnstable i.row = false) (s : State) :
    exec i s = .next ((effect i.row.kind i.operand s).charge (i.row.cycles + adder i.row i.operand s)) := by
  obtain ⟨hmode, -⟩ := Laws.rowShape i
  obtain ⟨hpenalty, hbranch, hindirect⟩ := decodeRow_columns i.opcode
  change isUnstable i.row ∨ memUse i.row.kind ≠ .reads → i.row.pagePenalty = false at hpenalty
  change i.row.mode = .relative → i.row.cycles = 2 at hbranch
  change i.row.mode = .indirect → i.row.cycles = 5 at hindirect
  rw [exec_eq_meaning]
  unfold meaning
  rw [if_neg (ne_true_of_eq_false h)]
  generalize i.row = r at *
  rw [← hmode] at hbranch hindirect
  generalize i.operand = o at *
  cases o with
  | implied => rfl
  | accumulator => rfl
  | immediate v => rfl
  | mem m =>
    have hplain (hu : memUse r.kind ≠ .reads) : adder r (.mem m) s = 0 := by
      rw [adder, hpenalty (.inr hu)]
      rfl
    dsimp only [effect, memEffect]
    cases hu : memUse r.kind with
    | reads => rfl
    | stores | modifies | jumps | calls =>
      rw [hplain (by rw [hu]; decide)]
      rfl
  | relative d =>
    dsimp only [effect, adder]
    rw [hbranch rfl, branch]
    split
    · dsimp only
      rw [takenCost_eq_baseline_add]
      rfl
    · rfl
  | indirect a =>
    rw [hindirect rfl]
    rfl

end Sys2Proof.Machine
end

section
/-! PROOFS. What an instruction costs (rule R112), and what it leaves unchanged in memory (rules R130, R83). -/

namespace Sys2Proof.Machine

/-! ### An effect is made of reads, register operations, pushes and at most one store -/

/-- A property kept by every bus read and by every register operation. -/
structure ReadClosed (P : State → Prop) : Prop where
  read : ∀ a s, P s → P (busRead a s).2
  cpu : ∀ f s, P s → P (s.mapCpu f)

theorem isStoring_iff_memUse (k : Mnemonic) : isStoring k = true ↔ memUse k = .stores ∨ memUse k = .modifies := by
  cases k <;> decide

theorem isPushing_of_calls {k : Mnemonic} : memUse k = .calls → isPushing k = true := by
  cases k <;> decide

section
variable {P : State → Prop}

theorem ReadClosed.read16 (H : ReadClosed P) (a b : Addr) {s : State} (h : P s) : P (busRead16 a b s).2 :=
  H.read _ _ (H.read _ s h)

theorem ReadClosed.resolve (H : ReadClosed P) (m : MemOperand) {s : State} (h : P s) : P (resolve m s).2 := by
  cases m with
  | indirectX z => exact H.read16 _ _ h
  | indirectY z => exact H.read16 _ _ h
  | _ => exact h

theorem ReadClosed.pull (H : ReadClosed P) {s : State} (h : P s) : P (pull s).2 := H.read _ _ (H.cpu _ s h)

theorem ReadClosed.pull16 (H : ReadClosed P) {s : State} (h : P s) : P (pull16 s).2 := H.pull (H.pull h)

/-- BRK is three pushes and a vector read. -/
theorem ReadClosed.softwareInterrupt (H : ReadClosed P) (hpush : ∀ v s, P s → P (push v s)) {s : State} (h : P s) :
    P (softwareInterrupt s) := by
  unfold Machine.softwareInterrupt takeException loadPc push16
  exact H.cpu _ _ (H.read16 _ _ (H.cpu _ _ (hpush _ _ (hpush _ _ (hpush _ _ h)))))

theorem ReadClosed.returnFromException (H : ReadClosed P) {s : State} (h : P s) : P (returnFromException s) := by
  unfold Machine.returnFromException
  exact H.cpu _ _ (H.pull16 (H.cpu _ _ (H.pull h)))

theorem ReadClosed.impliedEffect (H : ReadClosed P) {k : Mnemonic}
    (hpush : isPushing k = true → ∀ v s, P s → P (push v s)) {s : State} (h : P s) : P (impliedEffect k s) := by
  unfold Machine.impliedEffect
  split
  · exact H.softwareInterrupt (hpush rfl) h
  · exact H.returnFromException h
  · exact H.cpu _ _ (H.pull16 h)
  · exact hpush rfl _ s h
  · exact hpush rfl _ s h
  · exact H.cpu _ _ (H.pull h)
  · exact H.cpu _ _ (H.pull h)
  · exact H.cpu _ _ h

/-- A property kept by reads and register operations is kept by an instruction that does not store, where it is kept by
pushes or the instruction does not push either. -/
theorem ReadClosed.effect (H : ReadClosed P) {k : Mnemonic} {o : Operand}
    (hstore : ∀ m, o = .mem m → isStoring k = false)
    (hpush : isPushing k = true → ∀ v s, P s → P (push v s)) {s : State} (h : P s) : P (effect k o s) := by
  unfold Machine.effect
  cases o with
  | implied => exact H.impliedEffect hpush h
  | accumulator => exact H.cpu _ s h
  | immediate v => exact H.cpu _ s h
  | mem m =>
    have hu := H.resolve m h
    have hnot := mt (isStoring_iff_memUse k).mpr (Bool.eq_false_iff.mp (hstore m rfl))
    dsimp only [memEffect]
    cases huse : memUse k with
    | reads => exact H.cpu _ _ (H.read _ _ hu)
    | stores => exact absurd (.inl huse) hnot
    | modifies => exact absurd (.inr huse) hnot
    | jumps => exact H.cpu _ _ hu
    | calls =>
      have hpush := hpush (isPushing_of_calls huse)
      exact H.cpu _ _ (hpush _ _ (hpush _ _ hu))
  | relative d =>
    dsimp only
    split
    · exact H.cpu _ s h
    · exact h
  | indirect a => exact H.cpu _ _ (H.read16 _ _ h)

/-- A storing instruction reads, writes its effective address once, and may then compute on the registers. -/
theorem ReadClosed.effect_of_isStoring (H : ReadClosed P) {k : Mnemonic} (hk : isStoring k = true) (m : MemOperand)
    {s : State} (h : P s) :
    ∃ u v f, P u ∧ Machine.effect k (.mem m) s = (busWrite (Machine.resolve m s).1.addr v u).mapCpu f := by
  have hu := H.resolve m h
  simp only [Machine.effect, memEffect]
  obtain huse | huse := (isStoring_iff_memUse k).mp hk
  · rw [huse]
    exact ⟨_, _, fun c => c, hu, rfl⟩
  · rw [huse]
    exact ⟨_, _, _, H.read _ _ hu, rfl⟩

end

/-! ### Where an instruction stores -/

theorem storedTo_eq_some {i : Instr} {s : State} {ea : Addr} (h : storedTo i s = some ea) :
    ∃ m, i.operand = .mem m ∧ isStoring i.row.kind = true ∧ (resolve m s).1.addr = ea := by
  unfold storedTo at h
  split at h
  · next m hm =>
    split at h
    · next hk => exact ⟨m, hm, hk, Option.some.inj h⟩
    · cases h
  · cases h

theorem isStoring_of_storedTo_eq_none {i : Instr} {s : State} (h : storedTo i s = none) (m : MemOperand)
    (hm : i.operand = .mem m) : isStoring i.row.kind = false := by
  simpa [storedTo, hm] using h

/-- An opcode of classes (b) and (c) neither stores nor pushes, whatever its mnemonic's letters suggest. -/
theorem plain_of_isUnstable : ∀ op : Byte, isUnstable (decodeRow op) = true →
    isStoring (decodeRow op).kind = false ∧ isPushing (decodeRow op).kind = false ∧
    (decodeRow op).mode ≠ .relative := by decide

/-- An instruction of those classes that answers a next state is charged and does nothing. -/
theorem exec_of_isUnstable {i : Instr} {s t : State} (hi : isUnstable i.row = true) (h : exec i s = .next t) :
    t = s.charge i.row.cycles := by
  rw [exec_eq_meaning, meaning.eq_def, if_pos hi, unstable] at h
  split at h
  · exact (Host.Outcome.next.inj h).symm
  · cases h

/-! ### Its cost (rule R112) -/

theorem readClosed_cyc (n : Nat) : ReadClosed fun t => t.cyc = n where
  read a s h := (busRead_cyc a s).trans h
  cpu _ _ h := h

theorem push_cyc (v : Byte) (s : State) : (push v s).cyc = s.cyc := by rw [push_eq]

/-- An effect takes no cycles of its own but those of OAM DMA (rule R479). -/
theorem effect_cyc (i : Instr) (s : State) : (effect i.row.kind i.operand s).cyc =
    s.cyc + if storedTo i s = some 0x4014#16 then dmaCost s.cyc else 0 := by
  cases hst : storedTo i s with
  | none =>
    exact (readClosed_cyc s.cyc).effect (isStoring_of_storedTo_eq_none hst) (fun _ v u h => (push_cyc v u).trans h) rfl
  | some ea =>
    obtain ⟨m, hm, hk, rfl⟩ := storedTo_eq_some hst
    obtain ⟨u, v, f, hu, he⟩ := (readClosed_cyc s.cyc).effect_of_isStoring hk m rfl
    rw [hm, he, State.mapCpu_cyc, busWrite_cyc, hu]
    simp only [Option.some.injEq]

theorem toNat_pageCross (a b : Addr) : (pageCross a b).toNat = if hiByte a = hiByte b then 0 else 1 := by
  unfold pageCross page
  split
  · next h => rw [h, bne_self_eq_false]; rfl
  · next h => rw [bne_iff_ne.mpr h]; rfl

theorem dmaCost_eq (c : Nat) : dmaCost c = 513 + if c % 2 = 1 then 1 else 0 := by
  rw [dmaCost]
  split <;> omega

/-- The cost of rule R112 is the baseline, the adder of the row, and OAM DMA. -/
theorem costOf_eq (i : Instr) (s : State) : costOf i s =
    i.row.cycles + adder i.row i.operand s + if storedTo i s = some 0x4014#16 then dmaCost s.cyc else 0 := by
  unfold costOf adder
  rw [dmaCost_eq]
  congr 2
  cases i.operand with
  | mem m =>
    dsimp only
    cases i.row.pagePenalty && (resolve m s).1.crossed <;> rfl
  | relative d =>
    dsimp only
    rw [toNat_pageCross]
    rfl
  | _ => rfl

/-- Settles O32: the effect takes the cycles of OAM DMA, the rest is charged; an opcode of the classes (b) and (c) has no
adder and does no DMA. -/
theorem costOfEveryInstruction : Obligations.CostOfEveryInstruction := by
  intro i s t h
  rw [costOf_eq]
  cases hi : isUnstable i.row with
  | false =>
    obtain rfl := Host.Outcome.next.inj ((exec_eq_effect hi s).symm.trans h)
    rw [State.charge_cyc, effect_cyc]
    omega
  | true =>
    obtain ⟨hmode, -⟩ := Laws.rowShape i
    obtain ⟨hstore, -, hrel⟩ := plain_of_isUnstable i.opcode hi
    have hpenalty := (decodeRow_columns i.opcode).1 (.inl hi)
    change isStoring i.row.kind = false at hstore
    change i.row.mode ≠ .relative at hrel
    change i.row.pagePenalty = false at hpenalty
    have hadder : adder i.row i.operand s = 0 := by
      unfold adder
      split
      · rw [hpenalty]
        rfl
      · next d hd => exact absurd (by rw [← hmode, hd]; rfl) hrel
      · rfl
    have hnone : storedTo i s = none := by
      unfold storedTo
      split
      · rw [hstore]
        rfl
      · rfl
    rw [exec_of_isUnstable hi h, hadder, hnone]
    rfl

end Sys2Proof.Machine
end

section
/-! PROOFS. What a bus access leaves unchanged in every memory (spec/20_memory.md sections 1, 2 and 4), and so what an
instruction does, whether it stores or not. -/

namespace Sys2Proof.Machine

/-! ### The windows of PRG ROM -/

/-- A notification clocks a counter at most: the windows of PRG ROM stay where they are. -/
theorem prgOffset_notify (c : Cart) (m : Mapper) (filter now : Nat) (n : BitVec 14) (a : Addr) :
    prgOffset c (m.notify filter n now) a = prgOffset c m a := by
  cases m with
  | nrom => rfl
  | mmc1 r => rfl
  | mmc3 r =>
    rw [Mapper.notify]
    cases hn : n.getLsbD 12 <;> cases hr : r.a12
    · rw [mmc3Notify_of_level filter now (hn.trans hr.symm)]
    · rw [mmc3Notify_of_fall filter now hn hr]
      rfl
    · rw [mmc3Notify_of_rise filter now hn hr]
      split <;> rfl
    · rw [mmc3Notify_of_level filter now (hn.trans hr.symm)]

theorem prgOffset_chr (c : Cart) (chr : Memory) (m : Mapper) (a : Addr) :
    prgOffset { c with chr := chr } m a = prgOffset c m a := by
  cases m <;> rfl

theorem prgOffset_prgram (c : Cart) (prgram : Memory) (m : Mapper) (a : Addr) :
    prgOffset { c with prgram := prgram } m a = prgOffset c m a := by
  cases m <;> rfl

theorem prgOffset_busRead (a b : Addr) (s : State) :
    prgOffset s.cart (busRead a s).2.mapper b = prgOffset s.cart s.mapper b := by
  unfold busRead busReadRaw
  split
  · rfl
  split
  · unfold ppuRegRead
    split
    case h_3 =>
      rw [readData_eq rfl]
      exact prgOffset_notify _ _ _ _ _ _
    all_goals rfl
  split
  · unfold ioRead
    split
    · rfl
    split <;> rfl
  split <;> rfl

theorem prgOffset_ppuRegWrite (n : Nat) (v : Byte) (s : State) (a : Addr) :
    prgOffset s.cart (ppuRegWrite n v s).mapper a = prgOffset s.cart s.mapper a := by
  unfold ppuRegWrite
  split
  case h_6 =>
    unfold writeAddr
    split
    · exact prgOffset_notify _ _ _ _ _ _
    · rfl
  case h_7 =>
    rw [writeData_eq rfl]
    dsimp only
    split
    · exact prgOffset_notify _ _ _ _ _ _
    split <;> exact prgOffset_notify _ _ _ _ _ _
  all_goals rfl

/-! ### Accesses that change no memory but OAM -/

/-- `t` has every memory of `s` but OAM, and every window of PRG ROM where it is in `s`. -/
structure SameMemory (s t : State) : Prop where
  ram : t.ram = s.ram
  cart : t.cart = s.cart
  vram : t.ppu.vram = s.ppu.vram
  palette : t.ppu.palette = s.ppu.palette
  framebuffer : t.ppu.framebuffer = s.ppu.framebuffer
  windows : ∀ a, prgOffset s.cart t.mapper a = prgOffset s.cart s.mapper a

/-- The same, OAM included. -/
def SameMemoryAndOam (s t : State) : Prop := SameMemory s t ∧ t.ppu.oam = s.ppu.oam

theorem SameMemory.refl (s : State) : SameMemory s s := ⟨rfl, rfl, rfl, rfl, rfl, fun _ => rfl⟩

theorem SameMemory.trans {s t u : State} (h : SameMemory s t) (k : SameMemory t u) : SameMemory s u where
  ram := k.ram.trans h.ram
  cart := k.cart.trans h.cart
  vram := k.vram.trans h.vram
  palette := k.palette.trans h.palette
  framebuffer := k.framebuffer.trans h.framebuffer
  windows a := by
    have hk := k.windows a
    rw [h.cart] at hk
    exact hk.trans (h.windows a)

theorem SameMemory.byteAt {s t : State} (h : SameMemory s t) (a : Addr) : t.byteAt a = s.byteAt a := by
  unfold State.byteAt
  rw [h.ram, h.cart, h.windows]

theorem sameMemoryAndOam_busRead (a : Addr) (s : State) : SameMemoryAndOam s (busRead a s).2 := by
  have hwindows := prgOffset_busRead a (s := s)
  obtain ⟨_, _, _, _, _, _, _, _, _, h⟩ := busRead_cases a s
  rw [h] at hwindows ⊢
  exact ⟨⟨rfl, rfl, rfl, rfl, rfl, hwindows⟩, rfl⟩

theorem readClosed_sameMemoryAndOam (s : State) : ReadClosed (SameMemoryAndOam s) where
  read a t h := by
    obtain ⟨hmemory, hoam⟩ := sameMemoryAndOam_busRead a t
    exact ⟨h.1.trans hmemory, hoam.trans h.2⟩
  cpu _ _ h := ⟨⟨h.1.ram, h.1.cart, h.1.vram, h.1.palette, h.1.framebuffer, h.1.windows⟩, h.2⟩

theorem SameMemoryAndOam.charge {s t : State} (h : SameMemoryAndOam s t) (n : Nat) : SameMemoryAndOam s (t.charge n) :=
  ⟨⟨h.1.ram, h.1.cart, h.1.vram, h.1.palette, h.1.framebuffer, h.1.windows⟩, h.2⟩

/-- OAM DMA is reads, and stores into OAM. -/
theorem sameMemory_dmaCopy (page : Byte) (s : State) : SameMemory s (dmaCopy page s) :=
  dmaCopy_induction (SameMemory s) page (fun a t h => h.trans (sameMemoryAndOam_busRead a t).1)
    (fun _ _ _ h => ⟨h.ram, h.cart, h.vram, h.palette, h.framebuffer, h.windows⟩) s (.refl s)

/-! ### Instructions that neither store nor push -/

/-- Settles O34: such an instruction is made of reads and register operations. -/
theorem nonStoringInstructionsLeaveMemory : Obligations.NonStoringInstructionsLeaveMemory := by
  intro i s t h hstore hpush
  suffices hsame : SameMemoryAndOam s t from
    ⟨hsame.1.byteAt, hsame.1.cart, hsame.1.vram, hsame.2, hsame.1.palette, hsame.1.framebuffer⟩
  have hrefl : SameMemoryAndOam s s := ⟨.refl s, rfl⟩
  cases hi : isUnstable i.row with
  | true =>
    rw [exec_of_isUnstable hi h]
    exact hrefl.charge _
  | false =>
    obtain rfl := Host.Outcome.next.inj ((exec_eq_effect hi s).symm.trans h)
    have heffect := (readClosed_sameMemoryAndOam s).effect (isStoring_of_storedTo_eq_none hstore)
      (fun hpushing => absurd (hpush.symm.trans hpushing) Bool.false_ne_true) hrefl
    exact heffect.charge _

/-! ### What a bus write reaches -/

/-- What a write to `ea` leaves as it was. -/
structure StoreFrame (ea : Addr) (s t : State) : Prop where
  bytes : ∀ a, ¬ sameCell a ea → (a.toNat < 0x8000 ∨ ea.toNat < 0x8000) → t.byteAt a = s.byteAt a
  prg : t.cart.prg = s.cart.prg
  framebuffer : t.ppu.framebuffer = s.ppu.framebuffer
  rom : 0x8000 ≤ ea.toNat → t.ram = s.ram ∧ t.cart = s.cart
  video : ea.toNat < 0x2000 ∨ 0x4000 ≤ ea.toNat →
    t.ppu.vram = s.ppu.vram ∧ t.ppu.palette = s.ppu.palette ∧ t.cart.chr = s.cart.chr ∧
    (ea ≠ 0x4014#16 → t.ppu.oam = s.ppu.oam)

/-- A write that changes no memory, but OAM where it starts a DMA. -/
theorem StoreFrame.of_sameMemory {ea : Addr} {s t : State} (h : SameMemory s t)
    (hoam : ea ≠ 0x4014#16 → t.ppu.oam = s.ppu.oam) : StoreFrame ea s t where
  bytes a _ _ := h.byteAt a
  prg := by rw [h.cart]
  framebuffer := h.framebuffer
  rom _ := ⟨h.ram, h.cart⟩
  video _ := ⟨h.vram, h.palette, by rw [h.cart], hoam⟩

/-- What leads to the write changes no memory. -/
theorem StoreFrame.after {ea : Addr} {s u t : State} (h : SameMemoryAndOam s u) (k : StoreFrame ea u t) :
    StoreFrame ea s t where
  bytes a hcell hrange := (k.bytes a hcell hrange).trans (h.1.byteAt a)
  prg := by rw [k.prg, h.1.cart]
  framebuffer := k.framebuffer.trans h.1.framebuffer
  rom hea := by
    obtain ⟨hram, hcart⟩ := k.rom hea
    exact ⟨hram.trans h.1.ram, hcart.trans h.1.cart⟩
  video hea := by
    obtain ⟨hvram, hpalette, hchr, hoam⟩ := k.video hea
    exact ⟨hvram.trans h.1.vram, hpalette.trans h.1.palette, by rw [hchr, h.1.cart], fun hne => (hoam hne).trans h.2⟩

theorem storeFrame_of_ram {ea : Addr} (hea : ea.toNat < 0x2000) (v : Byte) (s : State) :
    StoreFrame ea s (busWrite ea v s) := by
  rw [busWrite_of_ram hea]
  refine ⟨fun a hcell _ => ?_, rfl, rfl, fun hrom => absurd hrom (by omega), fun _ => ⟨rfl, rfl, rfl, fun _ => rfl⟩⟩
  unfold State.byteAt
  split
  · next ha =>
    have hindex : a.toNat % 2048 ≠ ramIndex ea := fun he => hcell (.inr ⟨ha, hea, he⟩)
    rw [Memory.read_write_other _ _ _ v hindex]
  · rfl

theorem storeFrame_of_ppuReg {ea : Addr} (hlo : 0x2000 ≤ ea.toNat) (hhi : ea.toNat < 0x4000) (v : Byte) (s : State) :
    StoreFrame ea s (busWrite ea v s) := by
  rw [busWrite_of_ppuReg hlo hhi]
  have hwindows := prgOffset_ppuRegWrite (ea.toNat % 8) v { s with busLast := v }
  obtain ⟨_, _, _, _, _, _, _, _, _, _, m, chr, h⟩ := ppuRegWrite_writes (ea.toNat % 8) v { s with busLast := v }
  rw [h] at hwindows ⊢
  refine ⟨fun a _ _ => ?_, rfl, rfl, fun hrom => absurd hrom (by omega), fun hvideo => absurd hvideo (by omega)⟩
  unfold State.byteAt
  dsimp only at hwindows ⊢
  rw [prgOffset_chr, hwindows]

theorem storeFrame_of_io {ea : Addr} (hlo : 0x4000 ≤ ea.toNat) (hhi : ea.toNat < 0x6000) (v : Byte) (s : State) :
    StoreFrame ea s (busWrite ea v s) := by
  have hdrive : SameMemory s { s with busLast := v } := ⟨rfl, rfl, rfl, rfl, rfl, fun _ => rfl⟩
  by_cases h14 : ea = 0x4014#16
  · subst h14
    rw [busWrite_oamDma]
    have hcopy := hdrive.trans (sameMemory_dmaCopy v { s with busLast := v })
    exact .of_sameMemory ⟨hcopy.ram, hcopy.cart, hcopy.vram, hcopy.palette, hcopy.framebuffer, hcopy.windows⟩
      fun hne => absurd rfl hne
  by_cases h16 : ea = 0x4016#16
  · subst h16
    exact .of_sameMemory ⟨rfl, rfl, rfl, rfl, rfl, fun _ => rfl⟩ fun _ => rfl
  · rw [busWrite_absorbed hlo hhi h14 h16]
    exact .of_sameMemory hdrive fun _ => rfl

theorem storeFrame_of_prgRam {ea : Addr} (hlo : 0x6000 ≤ ea.toNat) (hhi : ea.toNat < 0x8000) (v : Byte) (s : State) :
    StoreFrame ea s (busWrite ea v s) := by
  rw [busWrite_of_prgRam hlo hhi]
  split
  · refine ⟨fun a hcell _ => ?_, rfl, rfl, fun hrom => absurd hrom (by omega), fun _ => ⟨rfl, rfl, rfl, fun _ => rfl⟩⟩
    have hne : a.toNat ≠ ea.toNat := fun he => hcell (.inl (BitVec.eq_of_toNat_eq he))
    unfold State.byteAt
    dsimp only
    by_cases hwindow : 0x6000 ≤ a.toNat
    · rw [Memory.read_write_other _ _ _ v (by omega), prgOffset_prgram]
    · simp only [show a.toNat < 0x6000 by omega, if_true]
  · exact .of_sameMemory ⟨rfl, rfl, rfl, rfl, rfl, fun _ => rfl⟩ fun _ => rfl

theorem storeFrame_of_rom {ea : Addr} (hea : 0x8000 ≤ ea.toNat) (v : Byte) (s : State) :
    StoreFrame ea s (busWrite ea v s) := by
  rw [busWrite_of_rom hea]
  refine ⟨fun a _ hrange => ?_, rfl, rfl, fun _ => ⟨rfl, rfl⟩, fun _ => ⟨rfl, rfl, rfl, fun _ => rfl⟩⟩
  unfold State.byteAt
  simp only [show a.toNat < 0x8000 by omega, if_true]

/-- A bus write changes the byte that it addresses and no other, region by region. -/
theorem storeFrame_busWrite (ea : Addr) (v : Byte) (s : State) : StoreFrame ea s (busWrite ea v s) := by
  by_cases hram : ea.toNat < 0x2000
  · exact storeFrame_of_ram hram v s
  by_cases hppu : ea.toNat < 0x4000
  · exact storeFrame_of_ppuReg (Nat.not_lt.mp hram) hppu v s
  by_cases hio : ea.toNat < 0x6000
  · exact storeFrame_of_io (Nat.not_lt.mp hppu) hio v s
  by_cases hprgRam : ea.toNat < 0x8000
  · exact storeFrame_of_prgRam (Nat.not_lt.mp hio) hprgRam v s
  · exact storeFrame_of_rom (Nat.not_lt.mp hprgRam) v s

/-- Settles O35: a storing instruction is reads and one bus write. -/
theorem storesChangeOnlyTheirByte : Obligations.StoresChangeOnlyTheirByte := by
  intro i s t ea h hstore
  obtain ⟨m, hm, hk, rfl⟩ := storedTo_eq_some hstore
  suffices hframe : StoreFrame (resolve m s).1.addr s t from
    ⟨hframe.bytes, hframe.prg, hframe.framebuffer, hframe.rom, hframe.video⟩
  have hi : isUnstable i.row = false := Bool.eq_false_iff.mpr fun hi =>
    absurd hk (ne_true_of_eq_false (plain_of_isUnstable i.opcode hi).1)
  obtain rfl := Host.Outcome.next.inj ((exec_eq_effect hi s).symm.trans h)
  obtain ⟨u, v, f, hu, he⟩ := (readClosed_sameMemoryAndOam s).effect_of_isStoring hk m ⟨.refl s, rfl⟩
  have k := StoreFrame.after hu (storeFrame_busWrite (resolve m s).1.addr v u)
  rw [hm, he]
  exact ⟨k.bytes, k.prg, k.framebuffer, k.rom, k.video⟩

end Sys2Proof.Machine
end

section
/-! PROOFS. The Decimal flag changes no result (rule R27): bus accesses do not see the registers, and the register operations
neither read D nor write it. -/

namespace Sys2Proof.Machine

/-! ### Bus accesses do not see the registers -/

theorem busReadRaw_mapCpu (a : Addr) (f : Cpu → Cpu) (s : State) :
    busReadRaw a (s.mapCpu f) = ((busReadRaw a s).1, (busReadRaw a s).2.mapCpu f) := by
  unfold busReadRaw
  split
  · rfl
  split
  · unfold ppuRegRead
    split
    case h_3 =>
      rw [readData_eq rfl, readData_eq rfl]
      rfl
    all_goals rfl
  split
  · unfold ioRead
    split
    · rfl
    split <;> rfl
  split <;> rfl

theorem busRead_mapCpu (a : Addr) (f : Cpu → Cpu) (s : State) :
    busRead a (s.mapCpu f) = ((busRead a s).1, (busRead a s).2.mapCpu f) := by
  unfold busRead
  rw [busReadRaw_mapCpu]
  rfl

theorem busRead16_mapCpu (a b : Addr) (f : Cpu → Cpu) (s : State) :
    busRead16 a b (s.mapCpu f) = ((busRead16 a b s).1, (busRead16 a b s).2.mapCpu f) := by
  simp only [busRead16, busRead_mapCpu]

theorem dmaCopy_mapCpu (page : Byte) (f : Cpu → Cpu) (s : State) :
    dmaCopy page (s.mapCpu f) = (dmaCopy page s).mapCpu f := by
  unfold dmaCopy
  generalize List.range 256 = l
  induction l generalizing s with
  | nil => rfl
  | cons i l ih =>
    have hbyte : dmaByte page (s.mapCpu f) i = (dmaByte page s i).mapCpu f := by
      unfold dmaByte
      rw [busRead_mapCpu]
      rfl
    rw [List.foldl_cons, hbyte, ih, List.foldl_cons]

theorem ppuRegWrite_mapCpu (n : Nat) (v : Byte) (f : Cpu → Cpu) (s : State) :
    ppuRegWrite n v (s.mapCpu f) = (ppuRegWrite n v s).mapCpu f := by
  unfold ppuRegWrite
  split
  case h_6 =>
    unfold writeAddr
    rw [State.mapCpu_ppu]
    split <;> rfl
  case h_7 =>
    rw [writeData_eq rfl, writeData_eq rfl, State.mapCpu_ppu]
    dsimp only
    split
    · rfl
    split <;> rfl
  all_goals rfl

theorem busWrite_mapCpu (a : Addr) (v : Byte) (f : Cpu → Cpu) (s : State) :
    busWrite a v (s.mapCpu f) = (busWrite a v s).mapCpu f := by
  have hdrive : { s.mapCpu f with busLast := v } = ({ s with busLast := v } : State).mapCpu f := rfl
  unfold busWrite
  rw [hdrive]
  dsimp only
  split
  · rfl
  split
  · exact ppuRegWrite_mapCpu _ v f _
  split
  · unfold ioWrite
    split
    · unfold oamDma
      rw [dmaCopy_mapCpu]
      rfl
    split <;> rfl
  split <;> rfl

theorem State.mapCpu_comm {f g : Cpu → Cpu} (h : ∀ c, f (g c) = g (f c)) (s : State) :
    (s.mapCpu g).mapCpu f = (s.mapCpu f).mapCpu g :=
  congrArg (fun c => { s with cpu := c }) (h s.cpu)

/-! ### Register operations that have nothing to do with D -/

/-- The operation neither reads D nor writes it. -/
def IgnoresD (f : Cpu → Cpu) : Prop := ∀ b c, f (c.put .D b) = (f c).put .D b

theorem putFlag_D_comm {f : Flag} (hf : f ≠ .D) (b d : Bool) (p : Byte) :
    putFlag f b (putFlag .D d p) = putFlag .D d (putFlag f b p) := by
  cases f with
  | D => exact absurd rfl hf
  | _ => revert b d p; decide

theorem get_put_D {f : Flag} (hf : f ≠ .D) (d : Bool) (c : Cpu) : (c.put .D d).get f = c.get f := by
  rw [Cpu.get, Cpu.put_p, getFlag_putFlag, if_neg hf]
  rfl

theorem ignoresD_put {f : Flag} (hf : f ≠ .D) (b : Bool) : IgnoresD (Cpu.put f b) :=
  fun d c => congrArg (fun p => { c with p := p }) (putFlag_D_comm hf b d c.p)

theorem IgnoresD.comp {f g : Cpu → Cpu} (hg : IgnoresD g) (hf : IgnoresD f) : IgnoresD fun c => g (f c) :=
  fun b c => (congrArg g (hf b c)).trans (hg b (f c))

theorem ignoresD_setNZ (v : Byte) : IgnoresD (setNZ v) :=
  (ignoresD_put (f := .N) (by decide) _).comp (ignoresD_put (f := .Z) (by decide) _)

theorem ignoresD_loadA (v : Byte) : IgnoresD (loadA v) := fun b c => ignoresD_setNZ v b { c with a := v }
theorem ignoresD_loadX (v : Byte) : IgnoresD (loadX v) := fun b c => ignoresD_setNZ v b { c with x := v }
theorem ignoresD_loadY (v : Byte) : IgnoresD (loadY v) := fun b c => ignoresD_setNZ v b { c with y := v }
theorem ignoresD_loadAX (v : Byte) : IgnoresD (loadAX v) := fun b c => ignoresD_setNZ v b { c with a := v, x := v }

theorem ignoresD_bitA (v : Byte) : IgnoresD (bitA v) := fun b c =>
  (((ignoresD_put (f := .V) (by decide) (v.getLsbD 6)).comp (ignoresD_put (f := .N) (by decide) (v.getLsbD 7))).comp
    (ignoresD_put (f := .Z) (by decide) (decide (c.a &&& v = 0#8)))) b c

theorem ignoresD_compare (r v : Byte) : IgnoresD (compare r v) :=
  ((ignoresD_put (f := .N) (by decide) _).comp (ignoresD_put (f := .Z) (by decide) _)).comp
    (ignoresD_put (f := .C) (by decide) _)

theorem ignoresD_setA (v : Byte) : IgnoresD fun c => { c with a := v } := fun _ _ => rfl

theorem ignoresD_add (v : Byte) : IgnoresD (add v) := by
  intro b c
  unfold add
  rw [get_put_D (by decide)]
  exact ((ignoresD_setNZ _).comp ((ignoresD_setA _).comp
    ((ignoresD_put (f := .V) (by decide) _).comp (ignoresD_put (f := .C) (by decide) _)))) b c

theorem ignoresD_anc (v : Byte) : IgnoresD (anc v) := fun b c =>
  ((ignoresD_put (f := .C) (by decide) ((c.a &&& v).getLsbD 7)).comp (ignoresD_loadA (c.a &&& v))) b c

theorem ignoresD_alr (v : Byte) : IgnoresD (alr v) := fun b c =>
  ((ignoresD_loadA ((c.a &&& v) >>> 1)).comp (ignoresD_put (f := .C) (by decide) ((c.a &&& v).getLsbD 0))) b c

theorem ignoresD_arr (v : Byte) : IgnoresD (arr v) := by
  intro b c
  have hbyte : arrByte v (c.put .D b) = arrByte v c := by
    unfold arrByte
    rw [get_put_D (by decide)]
    rfl
  unfold arr
  rw [hbyte]
  exact (((ignoresD_put (f := .V) (by decide) _).comp (ignoresD_put (f := .C) (by decide) _)).comp (ignoresD_loadA _)) b c

theorem ignoresD_axs (v : Byte) : IgnoresD (axs v) := fun b c =>
  ((ignoresD_loadX ((c.a &&& c.x) - v)).comp
    (ignoresD_put (f := .C) (by decide) (decide (v.toNat ≤ (c.a &&& c.x).toNat)))) b c

theorem ignoresD_readOp (k : Mnemonic) (v : Byte) : IgnoresD (readOp k v) := by
  unfold readOp
  split
  · exact ignoresD_loadA v
  · exact ignoresD_loadX v
  · exact ignoresD_loadY v
  · exact ignoresD_loadAX v
  · exact fun b c => ignoresD_loadA (c.a &&& v) b c
  · exact fun b c => ignoresD_loadA (c.a ||| v) b c
  · exact fun b c => ignoresD_loadA (c.a ^^^ v) b c
  · exact ignoresD_bitA v
  · exact ignoresD_add v
  · exact ignoresD_add (v ^^^ 0xFF#8)
  · exact fun b c => ignoresD_compare c.a v b c
  · exact fun b c => ignoresD_compare c.x v b c
  · exact fun b c => ignoresD_compare c.y v b c
  · exact ignoresD_anc v
  · exact ignoresD_alr v
  · exact ignoresD_arr v
  · exact ignoresD_axs v
  · exact fun _ _ => rfl

theorem ignoresD_modifyPost (k : Mnemonic) (v : Byte) : IgnoresD (modifyPost k v) := by
  unfold modifyPost
  split
  · exact fun b c => ignoresD_compare c.a v b c
  · exact ignoresD_add (v ^^^ 0xFF#8)
  · exact fun b c => ignoresD_loadA (c.a ||| v) b c
  · exact fun b c => ignoresD_loadA (c.a &&& v) b c
  · exact fun b c => ignoresD_loadA (c.a ^^^ v) b c
  · exact ignoresD_add v
  · exact ignoresD_setNZ v

/-- The byte made of `v` does not depend on D, and the carry is not D. -/
def CarryIgnoresD (op : Byte → Cpu → Byte × Cpu) : Prop :=
  ∀ v b c, op v (c.put .D b) = ((op v c).1, (op v c).2.put .D b)

theorem put_C_put_D (k b : Bool) (c : Cpu) : (c.put .D b).put .C k = (c.put .C k).put .D b :=
  ignoresD_put (by decide) k b c

theorem carryIgnoresD_aslByte : CarryIgnoresD aslByte := fun v b c => by
  unfold aslByte
  rw [put_C_put_D]

theorem carryIgnoresD_lsrByte : CarryIgnoresD lsrByte := fun v b c => by
  unfold lsrByte
  rw [put_C_put_D]

theorem carryIgnoresD_rolByte : CarryIgnoresD rolByte := fun v b c => by
  unfold rolByte
  rw [put_C_put_D, get_put_D (by decide)]

theorem carryIgnoresD_rorByte : CarryIgnoresD rorByte := fun v b c => by
  unfold rorByte
  rw [put_C_put_D, get_put_D (by decide)]

theorem carryIgnoresD_modifyOp (k : Mnemonic) : CarryIgnoresD (modifyOp k) := by
  cases k with
  | ASL | SLO => exact carryIgnoresD_aslByte
  | LSR | SRE => exact carryIgnoresD_lsrByte
  | ROL | RLA => exact carryIgnoresD_rolByte
  | ROR | RRA => exact carryIgnoresD_rorByte
  | _ => exact fun _ _ _ => rfl

theorem ignoresD_impliedOp {k : Mnemonic} (hsed : k ≠ .SED) (hcld : k ≠ .CLD) : IgnoresD (impliedOp k) := by
  unfold impliedOp
  split
  case h_6 => exact absurd rfl hcld
  case h_7 => exact absurd rfl hsed
  case h_8 => exact fun b c => ignoresD_loadX c.a b c
  case h_9 => exact fun b c => ignoresD_loadY c.a b c
  case h_10 => exact fun b c => ignoresD_loadA c.x b c
  case h_11 => exact fun b c => ignoresD_loadA c.y b c
  case h_12 => exact fun b c => ignoresD_loadX c.sp b c
  case h_13 => exact fun _ _ => rfl
  case h_14 => exact fun b c => ignoresD_loadX (c.x + 1#8) b c
  case h_15 => exact fun b c => ignoresD_loadY (c.y + 1#8) b c
  case h_16 => exact fun b c => ignoresD_loadX (c.x - 1#8) b c
  case h_17 => exact fun b c => ignoresD_loadY (c.y - 1#8) b c
  case h_18 => exact fun _ _ => rfl
  all_goals exact ignoresD_put (by decide) _

/-! ### Instructions -/

theorem resolve_withDecimal (m : MemOperand) (b : Bool) (s : State) :
    resolve m (s.withDecimal b) = ((resolve m s).1, (resolve m s).2.withDecimal b) := by
  cases m with
  | indirectX z => simp only [resolve, State.withDecimal, State.mapCpu_cpu, Cpu.put_x, busRead16_mapCpu]
  | indirectY z =>
    simp only [resolve, State.withDecimal, busRead16_mapCpu, State.mapCpu_cpu, Cpu.put_y]
  | _ => rfl

theorem State.mapCpu_withDecimal {f : Cpu → Cpu} (hf : IgnoresD f) (b : Bool) (s : State) :
    (s.withDecimal b).mapCpu f = (s.mapCpu f).withDecimal b :=
  State.mapCpu_comm (hf b) s

/-- The mnemonics that read D as part of P, or write it. -/
def usesD : List Mnemonic := [.SED, .CLD, .PLP, .RTI, .PHP, .BRK]

theorem impliedEffect_withDecimal {k : Mnemonic} (hk : k ∉ usesD) (b : Bool) (s : State) :
    impliedEffect k (s.withDecimal b) = (impliedEffect k s).withDecimal b := by
  unfold impliedEffect
  split
  case h_3 =>
    rw [pull16_eq, pull16_eq]
    rfl
  case h_4 =>
    rw [push_eq, push_eq]
    rfl
  case h_6 =>
    rw [pull_eq, pull_eq]
    exact State.mapCpu_withDecimal (ignoresD_loadA _) b { s with busLast := _, cpu := { s.cpu with sp := s.cpu.sp + 1#8 } }
  case h_8 =>
    have hsed : k ≠ .SED := fun h => hk (h ▸ by decide)
    have hcld : k ≠ .CLD := fun h => hk (h ▸ by decide)
    exact State.mapCpu_withDecimal (ignoresD_impliedOp hsed hcld) b s
  all_goals simp [usesD] at hk

theorem memEffect_withDecimal (k : Mnemonic) (m : MemOperand) (b : Bool) (s : State) :
    memEffect k m (s.withDecimal b) = (memEffect k m s).withDecimal b := by
  unfold memEffect
  rw [resolve_withDecimal]
  generalize resolve m s = r
  obtain ⟨ea, u⟩ := r
  dsimp only
  cases memUse k with
  | reads =>
    rw [State.withDecimal, busRead_mapCpu]
    exact State.mapCpu_withDecimal (ignoresD_readOp k _) b _
  | stores =>
    have hbyte : storedByte k (u.withDecimal b).cpu = storedByte k u.cpu := by
      unfold storedByte
      split <;> rfl
    rw [hbyte]
    exact busWrite_mapCpu _ _ _ _
  | modifies =>
    dsimp only
    rw [State.withDecimal, busRead_mapCpu]
    dsimp only
    rw [State.mapCpu_cpu, carryIgnoresD_modifyOp, busWrite_mapCpu, ignoresD_modifyPost]
    rfl
  | jumps => rfl
  | calls =>
    dsimp only
    rw [push16_eq, push16_eq]
    rfl

theorem branchTaken_withDecimal (k : Mnemonic) (b : Bool) (s : State) :
    branchTaken k (s.withDecimal b).cpu.p = branchTaken k s.cpu.p := by
  have hget {f : Flag} (hf : f ≠ .D) : getFlag (putFlag .D b s.cpu.p) f = getFlag s.cpu.p f := by
    rw [getFlag_putFlag, if_neg hf]
  unfold branchTaken
  split
  · exact congrArg not (hget (f := .C) (by decide))
  · exact hget (f := .C) (by decide)
  · exact congrArg not (hget (f := .Z) (by decide))
  · exact hget (f := .Z) (by decide)
  · exact congrArg not (hget (f := .V) (by decide))
  · exact hget (f := .V) (by decide)
  · exact congrArg not (hget (f := .N) (by decide))
  · exact hget (f := .N) (by decide)
  · rfl

theorem effect_withDecimal {k : Mnemonic} (hk : k ∉ usesD) (o : Operand) (b : Bool) (s : State) :
    effect k o (s.withDecimal b) = (effect k o s).withDecimal b := by
  unfold effect
  cases o with
  | implied => exact impliedEffect_withDecimal hk b s
  | accumulator =>
    refine State.mapCpu_withDecimal (fun d c => ?_) b s
    rw [Cpu.put_a, carryIgnoresD_modifyOp]
    exact ignoresD_loadA _ d _
  | immediate v => exact State.mapCpu_withDecimal (ignoresD_readOp k v) b s
  | mem m => exact memEffect_withDecimal k m b s
  | relative d =>
    dsimp only
    rw [branchTaken_withDecimal]
    split <;> rfl
  | indirect a =>
    dsimp only [indirectTarget]
    rw [State.withDecimal, busRead16_mapCpu]
    rfl

theorem adder_withDecimal (r : Row) (o : Operand) (b : Bool) (s : State) : adder r o (s.withDecimal b) = adder r o s := by
  unfold adder
  cases o with
  | mem m =>
    dsimp only
    rw [resolve_withDecimal]
  | relative d =>
    dsimp only
    rw [branchTaken_withDecimal]
    rfl
  | _ => rfl

theorem unstable_withDecimal (k : Mnemonic) (n : Nat) (b : Bool) (s : State) :
    unstable k n (s.withDecimal b) = onNext (State.withDecimal b) (unstable k n s) := by
  unfold unstable
  rw [State.withDecimal, State.mapCpu_params]
  split <;> rfl

/-- Settles O33: the effect and the cost of an instruction that neither reads P as a byte nor writes D. -/
theorem decimalFlagChangesNoResult : Obligations.DecimalFlagChangesNoResult := by
  intro i s b hk
  cases hi : isUnstable i.row with
  | false =>
    rw [exec_eq_effect hi, exec_eq_effect hi, effect_withDecimal hk, adder_withDecimal]
    rfl
  | true =>
    rw [exec_eq_meaning, exec_eq_meaning, meaning.eq_def, meaning.eq_def, if_pos hi, if_pos hi]
    exact unstable_withDecimal _ _ b s

end Sys2Proof.Machine
end

section
/-! PROOFS. The state after power-on (rules R50, R51, R502): the reset sequence, and its 21 dots. -/

namespace Sys2Proof.Machine

/-! ### The dots of the reset sequence -/

/-- A row of `n` cells of one colour, in a framebuffer that is blank otherwise. -/
def cellRow (c : Byte) : Nat → Memory
  | 0 => []
  | n + 1 => (cellRow c n).write n c

theorem cellRow_wf (c : Byte) {n : Nat} (hn : n ≤ 61440) : (cellRow c n).wf 61440 = true := by
  induction n with
  | zero => rfl
  | succ n ih => exact Memory.wf_write n c (ih (by omega)) (by omega)

theorem read_cellRow (c : Byte) {n : Nat} (hn : n ≤ 61440) (i : Nat) :
    (cellRow c n).read i = if i < n then c else 0#8 := by
  induction n with
  | zero => rfl
  | succ n ih =>
    rw [cellRow]
    obtain rfl | hne := eq_or_ne i n
    · rw [Memory.wf_read_write _ _ (cellRow_wf c (by omega)), if_pos (Nat.lt_succ_self i)]
    · rw [Memory.read_write_other _ _ _ _ hne, ih (by omega)]
      exact if_congr (by omega) rfl rfl

theorem cellRow_blank (n : Nat) : cellRow 0#8 n = [] := by
  induction n with
  | zero => rfl
  | succ n ih => rw [cellRow, ih]; rfl

/-- The machine `n` dots into the first line. -/
def State.atDot (s : State) (n : Nat) : State :=
  { s with ppu := { s.ppu with
      scanline := 0, dot := n, ticks := n, framebuffer := cellRow (s.ppu.palette.read 0) n } }

theorem State.atDot_framebuffer (s : State) (n : Nat) :
    (s.atDot n).ppu.framebuffer = cellRow ((s.atDot n).ppu.palette.read 0) n := rfl

/-- With rendering off, a dot of the first line writes the backdrop colour to its cell (rule R368). -/
theorem tick_atDot {s : State} (hmask : s.ppu.mask = 0#8) {n : Nat} (hn : n < 256) :
    (s.atDot n).tick = s.atDot (n + 1) := by
  have hadvance : advance (s.atDot n).ppu = { (s.atDot n).ppu with ticks := n + 1, dot := n + 1 } :=
    if_neg (show n + 1 ≠ 341 by omega)
  have hline : (advance (s.atDot n).ppu).scanline = 0 := by rw [hadvance]; rfl
  have hbit (k : Nat) : s.ppu.mask.getLsbD k = false := by rw [hmask]; exact BitVec.getLsbD_zero
  have htick := (idleLinesAndDisabledRendering (s.atDot n) _ rfl (fun h => by rw [hline] at h; omega)
    (fun h => by rw [hline] at h; omega)).2 (hbit 3) (hbit 4)
  rw [htick, hadvance]
  have hcell : 0 < 240 ∧ 1 ≤ n + 1 ∧ n + 1 ≤ 256 := ⟨by decide, by omega, by omega⟩
  simp only [State.atDot, if_pos hcell, hbit, Bool.false_eq_true, if_false, cellRow, Nat.mul_zero, Nat.zero_add,
    Nat.add_sub_cancel]

theorem ticks_atDot {s : State} (hmask : s.ppu.mask = 0#8) {n : Nat} (hn : n ≤ 256) :
    State.ticks n (s.atDot 0) = s.atDot n := by
  induction n with
  | zero => rfl
  | succ n ih => rw [State.ticks_succ, ih (by omega), tick_atDot hmask (by omega)]

/-! ### Power-on -/

/-- The machine after power-on, by its board: the columns of rules R50 and R51, the reset sequence and its dots. -/
def poweredOn (cfg : Cfg) (b : Board) : State :=
  let s := powerOnColumn cfg b
  State.atDot { s with
    cpu := Cpu.afterReset (s.vectorAt 0xFFFC#16), busLast := hiByte (s.vectorAt 0xFFFC#16), cyc := 7 } 21

theorem resetSequence_powerOnColumn (cfg : Cfg) (b : Board) : resetSequence (powerOnColumn cfg b) =
    State.atDot { powerOnColumn cfg b with
      cpu := Cpu.afterReset ((powerOnColumn cfg b).vectorAt 0xFFFC#16)
      busLast := hiByte ((powerOnColumn cfg b).vectorAt 0xFFFC#16), cyc := 7 } 0 := by
  have hstatus : (powerOnColumn cfg b).cpu.p ||| 0x04#8 = 0x24#8 := by
    change (0x20#8 ||| 0x04#8 : Byte) = _
    decide
  rw [resetSequence_eq, hstatus]
  rfl

theorem powerOn_of_construct {cfg : Cfg} {b : Board} (h : construct cfg = .ok (powerOnColumn cfg b)) :
    powerOn cfg = .ok (poweredOn cfg b) := by
  rw [powerOn, h]
  dsimp only
  have hcyc : (resetSequence (powerOnColumn cfg b)).cyc = (powerOnColumn cfg b).cyc + 7 := by
    rw [resetSequence_powerOnColumn]
    rfl
  rw [settle_of_cyc hcyc, resetSequence_powerOnColumn, State.drain, ticks_atDot rfl (by decide)]
  rfl

/-- What passes the check is for the board that the image names. -/
theorem boardOf_of_check {c : CartImage} {b : Board} (h : c.check = .ok b) : boardOf c.mapperId = some b := by
  unfold CartImage.check at h
  split at h
  · cases h
  · next b' hb =>
    split at h
    · rw [hb, Except.ok.inj h]
    · cases h

theorem powerOn_eq_ok {cfg : Cfg} {s : State} (h : powerOn cfg = .ok s) :
    ∃ b, boardOf cfg.cart.mapperId = some b ∧ s = poweredOn cfg b := by
  cases hcheck : cfg.cart.check with
  | error e =>
    rw [powerOn, construct, hcheck] at h
    cases h
  | ok b =>
    have hconstruct : construct cfg = .ok (powerOnColumn cfg b) := by rw [construct, hcheck]
    rw [powerOn_of_construct hconstruct] at h
    exact ⟨b, boardOf_of_check hcheck, (Except.ok.inj h).symm⟩

/-- Settles O11: every field of that machine. -/
theorem powerOnState : Obligations.PowerOnState := by
  intro cfg s h
  obtain ⟨b, hboard, rfl⟩ := powerOn_eq_ok h
  have hframe : (poweredOn cfg b).ppu.framebuffer = cellRow ((poweredOn cfg b).ppu.palette.read 0) 21 :=
    State.atDot_framebuffer _ 21
  have hwf := cellRow_wf ((poweredOn cfg b).ppu.palette.read 0) (show 21 ≤ 61440 by decide)
  have hread := read_cellRow ((poweredOn cfg b).ppu.palette.read 0) (show 21 ≤ 61440 by decide)
  rw [← hframe] at hwf hread
  refine ⟨rfl, rfl, rfl, rfl, rfl, rfl, rfl, rfl, rfl, rfl, rfl, rfl, rfl, rfl, rfl, rfl, rfl, rfl, rfl, rfl, rfl,
    rfl, rfl, rfl, rfl, rfl, rfl, rfl, rfl, rfl, rfl, rfl, rfl, rfl, rfl, hwf, hread, rfl, rfl, rfl, rfl, rfl, ⟨b, hboard, rfl⟩, rfl, rfl,
    rfl, rfl⟩

/-- The configuration of log entry 3: an NROM board with one PRG bank, CHR RAM, and an image that lists nothing. -/
def emptyCartridge : Cfg :=
  { cart := { mapperId := 0, prgLen := 16384, prg := [], chrLen := 0, chr := [], mirroring := .horizontal } }

theorem construct_emptyCartridge : construct emptyCartridge = .ok (powerOnColumn emptyCartridge .nrom) := by
  rw [construct_of_board (b := .nrom) rfl rfl rfl]
  exact if_pos ⟨by decide, by decide, by decide, by decide⟩

/-- Settles O13: the framebuffer is blank, as the backdrop is, and the reset vector is $0000, as nothing is listed. -/
theorem resetStateIsPowerOnOfTheEmptyCartridge : Obligations.ResetStateIsPowerOnOfTheEmptyCartridge := by
  have hrow : cellRow (Memory.read [] 0) 21 = [] := cellRow_blank 21
  refine (powerOn_of_construct construct_emptyCartridge).trans (congrArg Except.ok ?_)
  have hpower : poweredOn emptyCartridge .nrom =
    { State.reset with ppu := { State.reset.ppu with framebuffer := cellRow (Memory.read [] 0) 21 } } := rfl
  rw [hpower, hrow]
  rfl

/-- Settles O60: the fields of the state, one invariant after the other. -/
theorem resetStateHasTheInvariants : Obligations.ResetStateHasTheInvariants :=
  ⟨rfl, ⟨by decide, by decide, by decide⟩, ⟨by decide, by decide⟩,
    ⟨by decide, by decide, by decide, by decide, by decide, by decide, by decide, by decide⟩,
    fun _ => ⟨(by decide : (0#8 : Byte).toNat < 64), (by decide : (0#8 : Byte).toNat < 64)⟩,
    ⟨rfl, by decide, by decide⟩, trivial⟩

end Sys2Proof.Machine
end
